-- ==== Sys2Proof/Word.lean ====
section
/-!
DEFINITION. The words of the model: the bit-vector widths the manual uses, and the array's size.
All multi-byte data is little-endian (00_scope.md, Notation).
-/
namespace Sys2Proof

/-- One byte of memory. -/
abbrev Byte := BitVec 8

/-- A 32-bit register or Pilot word. -/
abbrev Word := BitVec 32

/-- A 48-bit sailing number (01, R10). -/
abbrev Sail := BitVec 48

/-- The number of PEs of one module, 1024 rows of 1024 (00_scope.md, Headline figures). -/
def peCount : Nat := 1048576

/-- One bit in every PE: bit n belongs to the PE of linear index n = row × 1024 + column. -/
abbrev Plane := BitVec peCount

/-- One descriptor, 64 bytes, byte 0 in the low bits. -/
abbrev Raw64 := BitVec 512

/-- A kernel argument block (R102) or a transfer block (R211), 32 bytes, byte 0 in the low bits. -/
abbrev Block32 := BitVec 256

end Sys2Proof
end

