-- ==== Sys2Proof/Syntax.lean ====
section
/-!
DEFINITION. The commands of the module: one constructor of `Instr` per row of spec/opcode_table.json,
in the table's order, each with the operands its rule gives it.

A row of the table is an operation of some party on the module (a register write, a bus access, a Pilot
instruction) or an event of the module's own units (a tick, a completion, an expiry). A Pilot instruction
carries the 32-bit word the Pilots fetched at their PC; a transfer that reads host memory carries what the
host answered; an event that a sensor or another module causes carries the reading or the message.
-/
namespace Sys2Proof

/-- Who writes a register: the host through BAR0, a Pilot at its current level, the debugger (which acts as a Pilot at
level 2, R565), or user logic through FNOC (R469). -/
inductive Writer where
  | host
  | pilot
  | debug
  | fabric
  deriving DecidableEq, Repr

/-- The debugger's path (17, Authentication): JTAG or the BAR0 window. -/
inductive DbgPath where
  | jtag
  | bar0
  deriving DecidableEq, Repr

/-- A side of the array and its Ferry port. -/
inductive Side where
  | east
  | west
  | north
  | south
  deriving DecidableEq, Repr

/-- How a read of host memory fails (R284, R299). -/
inductive ReadError where
  | unsupportedRequest
  | completerAbort
  | timeout
  | poisoned
  deriving DecidableEq, Repr

/-- How the host answered a read of its memory (R284, R299): the data, or a failure. -/
inductive HostRead where
  | data (bytes : List Byte)
  | fail (error : ReadError) (bytesBefore : List Byte)
  deriving DecidableEq, Repr

/-- The PCIe link and what the host has programmed for it (R266): the rate, 8, 16, 32 or 64 GT/s; log2 of the
lanes; FLIT mode; Enable Relaxed Ordering and Enable No Snoop; Max Payload Size and Max Read Request Size as
PCIe codes them, 128 bytes × 2^code; and the size of BAR4, 16 GiB × 2^bar4. -/
structure LinkConfig where
  rate  : BitVec 2
  width : BitVec 2
  flit  : Bool
  relax : Bool
  noSnoop : Bool
  mps   : BitVec 3
  mrrs  : BitVec 3
  bar4  : BitVec 2
  deriving DecidableEq, Repr

/-- What discovery tells of another module on one port (R433): its announcement, the hops it has come, its tick depth,
whether, as a neighbour, it takes its upstream over this link (R436, R438), and the ports on which the tree of
shortest paths rooted at it goes on from this module (R456). -/
structure NodeInfo where
  node   : BitVec 16
  serial : BitVec 80
  root   : Bool
  port   : BitVec 2
  hops   : Nat
  depth  : Nat
  child  : Bool
  onward : BitVec 4
  deriving DecidableEq, Repr

/-- Whom an answer to a rejoin request is for, and the target installation sailing it names (R447). -/
structure RejoinTo where
  node   : BitVec 16
  target : Sail
  deriving DecidableEq, Repr

/-- The source of a WRITE packet, and the port on which the packet came in (R459). -/
structure PktFrom where
  node : BitVec 16
  port : BitVec 2
  deriving DecidableEq, Repr

/-- A tick message (R438). Latencies are in units of 0.125 ns, as FRY_PLATn. -/
structure TickMsg where
  sail   : Sail
  mepoch : BitVec 16
  delay  : BitVec 16
  lat    : Nat
  deriving DecidableEq, Repr

/-- A verdict (R444). -/
structure VerdictMsg where
  sail     : Sail
  members  : BitVec 17
  excluded : List (BitVec 16)
  many     : Bool
  partialSail : Bool
  deriving DecidableEq, Repr

/-- How the training of a Ferry port ended (R426): every step succeeded, or the step that failed.
`pairing` is whether the far end is the port this one may be joined to (R424), `inLoad` whether the handshake shows the
far module in LOAD (R462). -/
inductive Training where
  | success (rate : BitVec 2) (reversed : Bool) (farNode : BitVec 16) (pairing : Bool) (lat : BitVec 16) (inLoad : Bool)
  | failed (step : BitVec 8)
  deriving DecidableEq, Repr

/-- What a camera port's lanes bring (R482, 14 Camera ports). -/
inductive CamBurst where
  | start
  | startBadSync
  | stop
  | skewCal
  | ulpsEnter
  | ulpsExit
  deriving DecidableEq, Repr

/-- A request of user logic on FNOC or BANK3 (R469): a read or a write of `bytes`. -/
inductive BusReq where
  | read (addr : BitVec 40) (len : Nat)
  | write (addr : BitVec 40) (bytes : List Byte)
  deriving DecidableEq, Repr

/-- Pin levels the module samples: NODE_STRAP3 to NODE_STRAP0 and BOOT_SEL (R578). -/
structure Straps where
  node    : BitVec 4
  bootSel : Bool
  deriving DecidableEq, Repr

/-- What an SMBus master writes, with the PEC that it sends after it, if any (R546). -/
structure WithPec (α : Type) where
  val : α
  pec : Option Byte
  deriving DecidableEq, Repr

/-- A scan of the bypass register: the instruction code that selected it, which is none of the four other instructions', and
the bit shifted in (R550). -/
structure BypassScan where
  code : BitVec 5
  bit  : Bool
  deriving DecidableEq, Repr

/-- The commands: one constructor per row of spec/opcode_table.json. -/
inductive Instr where
  -- host bus and endpoint
  | registerWrite (wr : Writer) (off : BitVec 26) (val : Word)
  | barBadSizeAccess (isWrite : Bool)
  | bar4Access (isWrite : Bool) (off : Nat) (len : Nat) (data : List Byte)
  | perstNAssert
  | perstNRise
  | dlDown
  | functionLevelReset
  | d3hotEntry
  | d0Return
  | vectorUnmask (vec : BitVec 11)
  -- ticks and timetable
  | frameSyncInEdge (falling : Bool) (heldPs : Nat)
  | tick (junction : BitVec 16)
  | timerTick (junction : BitVec 16)
  | tickSourceLoss (junction : BitVec 16)
  | clockPauseEnd
  | frameSyncOutEnd
  | checkpointComplete
  | entryRelease (idx : BitVec 8)
  | notifyRecordPost (idx : BitVec 8)
  | deadlineExpiry (idx : BitVec 8)
  | timetableCompletionPost (k : Nat)
  | ttbSrcCommit (wr : Writer)
  | ttbTloadCommit (wr : Writer)
  | tloadCommitDone
  | ttbSwCommit (wr : Writer)
  | ttbAck (wr : Writer) (val : Word)
  | ttbNtfPop (wr : Writer)
  | ttbSailLoRead (wr : Writer)
  -- Helm
  | microwordIssue
  | abar
  | halox
  | halow
  | halowComplete
  | halowTimeout
  | widthReset
  | widthSet
  | notify
  | globalOrComplete
  | censusComplete
  | installationReductionDone
  | probeResult
  | liveWidthCommit
  | landing
  | kernelResume
  | landlate (aclk : Nat)
  | controlStoreParityError
  | kernelSubmit (wr : Writer)
  | kernelStart
  | kernelEnd
  | stop (wr : Writer)
  | flushq (wr : Writer)
  | patchRequest (wr : Writer) (val : Word)
  | patchGrant
  | hlmPatchCommit (wr : Writer)
  | hlmFpevPop (wr : Writer)
  -- Loader
  | ldrXsubLoad (wr : Writer)
  | ldrXsubStore (wr : Writer)
  | transferStart
  | loaderSteal
  | transferComplete
  | restoreComplete
  -- queue engine
  | sqTailDoorbell (qp : BitVec 16) (val : Word)
  | cqHeadDoorbell (qp : BitVec 16) (val : Word)
  | descriptorFetch (qp : BitVec 16) (resp : HostRead)
  | badop (qp : BitVec 16)
  | kernel (qp : BitVec 16)
  | move (qp : BitVec 16) (resp : HostRead) (collided : List Nat)
  | moveComplete (qp : BitVec 16) (pos : Nat)
  | planeLoad (qp : BitVec 16)
  | planeStore (qp : BitVec 16)
  | timetableBind (qp : BitVec 16)
  | fence (qp : BitVec 16)
  | fenceComplete (qp : BitVec 16)
  | mailbox (qp : BitVec 16)
  | queMbDone (wr : Writer) (val : Word)
  | linkSend (qp : BitVec 16) (resp : HostRead)
  | linkSendTimeout (seq : Nat)
  | identify
  | createQp
  | deleteQp
  | setIrq
  | clientLost
  | qpState
  | pairDrainEnd (qp : BitVec 16)
  | modtimeExpiry (qp : BitVec 16)
  | queAdmCommit (wr : Writer)
  | asyncEventPost
  -- Pilot instructions
  | add (w : Word)
  | sub (w : Word)
  | and (w : Word)
  | or (w : Word)
  | xor (w : Word)
  | nor (w : Word)
  | sll (w : Word)
  | srl (w : Word)
  | sra (w : Word)
  | slli (w : Word)
  | srli (w : Word)
  | srai (w : Word)
  | seq (w : Word)
  | sne (w : Word)
  | slt (w : Word)
  | sltu (w : Word)
  | sle (w : Word)
  | sleu (w : Word)
  | addc (w : Word)
  | subc (w : Word)
  | addcz (w : Word)
  | subcz (w : Word)
  | rdcy (w : Word)
  | wrcy (w : Word)
  | sextb (w : Word)
  | sexth (w : Word)
  | addi (w : Word)
  | andi (w : Word)
  | ori (w : Word)
  | xori (w : Word)
  | slti (w : Word)
  | sltiu (w : Word)
  | seqi (w : Word)
  | lui (w : Word)
  | mul (w : Word)
  | mulw (w : Word)
  | mulwu (w : Word)
  | div (w : Word)
  | divu (w : Word)
  | iterativeUnitWrite (divider : Bool)
  | fpuResultWrite (k : Nat)
  | lb (w : Word)
  | lbu (w : Word)
  | lh (w : Word)
  | lhu (w : Word)
  | lw (w : Word)
  | lwx (w : Word)
  | sb (w : Word) (collided : Nat)
  | sh (w : Word) (collided : Nat)
  | sw (w : Word) (collided : Nat)
  | swc (w : Word) (collided : Nat) (otherWrote : Bool)
  | bez (w : Word)
  | bnz (w : Word)
  | j (w : Word)
  | call (w : Word)
  | jr (w : Word)
  | callr (w : Word)
  | ret (w : Word)
  | mfs (w : Word)
  | mts (w : Word)
  | rte (w : Word)
  | trap (w : Word)
  | brk (w : Word)
  | idle (w : Word)
  | syncI (w : Word)
  | waitu (w : Word)
  | rsld (w : Word)
  | rsst (w : Word)
  | bmove (w : Word) (collided : Nat)
  | bfill (w : Word) (collided : Nat)
  | bcrc (w : Word)
  | fadd (w : Word)
  | fsub (w : Word)
  | fmul (w : Word)
  | fdiv (w : Word)
  | fsqrt (w : Word)
  | fneg (w : Word)
  | fabs (w : Word)
  | feq (w : Word)
  | flt (w : Word)
  | fle (w : Word)
  | fun_ (w : Word)
  | fcvtWS (w : Word)
  | fcvtWzS (w : Word)
  | fcvtWuS (w : Word)
  | fcvtSW (w : Word)
  | fcvtSWu (w : Word)
  | interruptEntry
  | alarmEntry
  | pilotWatchdogExpiry
  | pltWdogKick (wr : Writer) (val : Word)
  | pltWdogCtlWrite (wr : Writer) (val : Word)
  | lockstepMismatch
  | arbitrationDecision (aPass bPass : Bool)
  -- memory and network
  | nocTimeout (src tgt : BitVec 4) (addr : Word) (isWrite : Bool)
  | bankEccWriteback (bank : BitVec 2) (word : BitVec 20)
  | dramEccWriteback (word : BitVec 34)
  | patrolScrub
  | dramDerate (degC : BitVec 8)
  | dramInitDone
  | nocRtCommit (wr : Writer)
  | nocIsocmd (wr : Writer) (val : Word)
  | nocStclr (wr : Writer) (val : Word)
  | nocStbyteLoRead (wr : Writer)
  | domainWake (ni : BitVec 4) (slow : Bool)
  | ferryDomainSleep (port : BitVec 2)
  | fabricDomainSleep
  -- Ferry links
  | portSignalDetect (port : BitVec 2)
  | portUp (port : BitVec 2) (t : Training)
  | trainingRetry (port : BitVec 2)
  | portDown (port : BitVec 2) (lostSignal : Bool)
  | latencyRecalibration (port : BitVec 2) (lat : BitVec 16)
  | flitReceive (port : BitVec 2) (flit : BitVec 2048) (codewordOk : Bool) (corrected : Nat)
  | discovery (nodes : List NodeInfo)
  | fryNodeWrite (wr : Writer) (val : Word)
  | fryTreeCommit (wr : Writer)
  | fryMbumpArm (wr : Writer) (val : Word)
  | fryPctlWrite (wr : Writer) (port : BitVec 2) (val : Word)
  | tickMessageSend
  | tickMessageReceive (port : BitVec 2) (msg : TickMsg)
  | ferryTick (junction : BitVec 16)
  | tickReport (node : BitVec 16) (sail : Sail)
  | verdictSend
  | verdict (msg : VerdictMsg)
  | verdictTimeout
  | rejoinRequest (node : BitVec 16)
  | haloArrival (side : Side) (slot : BitVec 6) (sail : Sail) (seq : Nat) (bits : BitVec 1024)
  | combineContribution (node : BitVec 16) (sail : Sail) (k : Nat) (isCensus : Bool) (value : Nat)
  | combineTimeout
  | pktWrite (src : PktFrom) (dst : BitVec 16) (seq : Nat) (last : Bool) (addr : BitVec 64) (bytes : List Byte)
  | pktMailbox (src dst : BitVec 16) (seq : Nat) (mcode : Word) (bytes : List Byte)
  | pktDoorbell (src dst : BitVec 16) (qp : BitVec 16) (cqHead : Bool) (val : Word)
  | pktNotice (src dst : BitVec 16) (qp : BitVec 16)
  | pktAck (src dst : BitVec 16) (seq : Nat) (status : BitVec 8)
  -- fabric
  | fabCfgCommit (wr : Writer)
  | configFrame
  | regionGo (wr : Writer) (r : BitVec 3)
  | goCrcDone (r : BitVec 3)
  | pinRelease (r : BitVec 3)
  | regionStop (wr : Writer) (r : BitVec 3)
  | regionClear (wr : Writer) (r : BitVec 3)
  | fabRclkCommit (wr : Writer) (val : Word)
  | treeSwitchForced (r : BitVec 3) (tree : BitVec 2)
  | fabCamCommit (wr : Writer) (val : Word)
  | fabQcommit (wr : Writer) (val : Word)
  | fabIobankWrite (wr : Writer) (b : BitVec 2) (val : Word)
  | fabQpop (wr : Writer) (n : BitVec 7) (val : Word)
  | fabQpush (wr : Writer) (n : BitVec 7) (val : Word)
  | queuePush (n : BitVec 7) (word : BitVec 72) (parityOk : Bool)
  | queuePop (n : BitVec 7) (pushed : Option (BitVec 72)) (parityOk : Bool)
  | fnocRequest (req : BusReq) (collided : List Nat)
  | uirq (k : BitVec 3)
  -- faults
  | faultEvent (src : BitVec 8) (inst : BitVec 9) (detail : Word)
  | bistStep (failOnce failTwice : BitVec 16)
  | substitutionDone
  | repairRecordWrite (ok : Bool)
  | fltSrcCommit (wr : Writer)
  | fltSwdCommit (wr : Writer)
  | fltLogPop (wr : Writer)
  | sailingWatchdogExpiry
  | wardenNoMajority
  | clockComparison (apart : Bool)
  -- supply, modes, boot
  | vinRise (mv : BitVec 16) (straps : Straps) (ignWake : Bool)
  | vinLow (mv : BitVec 16)
  | brownOut
  | wardenPowerLoss (mv : BitVec 16)
  | overvoltageShutdown (mv : BitVec 16)
  | thermalShutdown (junction : BitVec 16)
  | railFault (inst : BitVec 4) (reading : Word)
  | pllFault (reading : Word)
  | refclkLost (reading : Word)
  | ignWakeHigh
  | ignWakeFall
  | ignoffExpiry
  | wakeDebounceEnd
  | hx1ResetRelease (straps : Straps)
  | bootlimExpiry
  | moduleResetEnd (straps : Straps)
  | sleep (wr : Writer)
  | restart (wr : Writer)
  | runreq (wr : Writer) (junction : BitVec 16)
  | pwrAclkCommit (wr : Writer)
  | tagAreaWrite (wr : Writer) (n : BitVec 7) (val : Word)
  | tagFlashWrite (ok : Bool)
  | flashRead (wr : Writer)
  | flashProgram (wr : Writer)
  | flashErase (wr : Writer)
  | flashOpDone (ok : Bool)
  -- SMBus
  | smbMode
  | smbWardenStatus
  | smbWake
  | smbSleep
  | smbRestart
  | smbVin (mv : BitVec 16)
  | smbTempJunction (t : BitVec 16)
  | smbTempWarden (t : BitVec 16)
  | smbPower (dw : BitVec 16)
  | smbTagPtr (v : WithPec Byte)
  | smbTagRead
  | smbTagWrite (bytes : WithPec (List Byte))
  | smbBootStatus
  | smbIdent
  | smbAlertMask (write : Option (WithPec Byte))
  | smbAlertStatus
  | smbAlertResponse
  | smbClkTimeout
  -- debug
  | tapReset
  | extest (drive : BitVec 256)
  | samplePreload (load : BitVec 256)
  | idcode
  | bypass (scan : BypassScan)
  | dbgaccUpdate (dr : BitVec 48)
  | challenge (path : DbgPath)
  | answer (path : DbgPath) (level : BitVec 2)
  | logout (path : DbgPath)
  | challengeLapse
  | lockoutEnd
  | haltreq (path : DbgPath)
  | dbgResume (path : DbgPath)
  | dbgStep (path : DbgPath)
  | dbgRegdataAccess (path : DbgPath) (write : Option Word)
  | dbgMdataWrite (path : DbgPath) (val : Word) (collided : Nat)
  | dbgMctlRead (path : DbgPath) (val : Word)
  | helmHalt (path : DbgPath)
  | helmStep (path : DbgPath)
  | helmResume (path : DbgPath)
  | spill (path : DbgPath)
  | gwRxWrite (path : DbgPath) (val : Word)
  | gwRxRead
  | gwTxWrite (val : Word)
  | gwTxEmpty (path : DbgPath)
  | rcFieldRead (wr : Writer) (off : BitVec 26)
  | ttbRec0Read (wr : Writer)
  | ldrLastRead (wr : Writer)
  -- further events
  | dlUp (pasidEn funcMask : Bool) (link : LinkConfig)
  | ignWakeRise
  | vinReturnWake
  | thermalWakeBlockEnd (wardenHot : Bool)
  | tmrCopyDisagreement
  | ferryErrorIntervalEnd (port : BitVec 2)
  | cameraBurst (port : BitVec 2) (b : CamBurst)
  | bank3Request (req : BusReq)
  | dramTrainingDone
  | pilotSelfTestEnd (aPass bPass : Bool)
  | imageSectionsVerified
  | rejoinAnswer (dest : RejoinTo) (mepoch : BitVec 16)
  deriving DecidableEq, Repr

end Sys2Proof
end

