-- ==== Sys2Proof/WellFormed.lean ====
section
/-!
DEFINITION. Well-formed commands: the operands that the rule of a command can carry. A command that is not
well-formed is no event of the module; `exec` is total on it all the same.
-/
namespace Sys2Proof

/-- The two kinds of request that a bank's NoC port accepts (R393). -/
def nocKind (a n : Nat) : Bool := (decide (0 < n) && decide (n ≤ 8)) || (decide (n = 64) && decide (a % 64 = 0))

/-- Whether the operands of a command are such as its rule gives. -/
def Instr.wf (i : Instr) : Bool :=
  match i with
  | .registerWrite _ off _ => decide (off.toNat % 4 = 0)
  | .bar4Access isWrite _ len data => decide (0 < len) && (!isWrite || decide (data.length = len))
  | .frameSyncInEdge _ heldPs => decide (0 < heldPs)
  | .rcFieldRead _ off => decide (off.toNat % 4 = 0)
  | .tagAreaWrite _ n _ => decide (n.toNat < 128)
  | .smbTagWrite bytes => decide (bytes.val.length = 32)
  | .bypass scan => decide (scan.code ∉ ([0x00, 0x01, 0x02, 0x08] : List (BitVec 5)))
  | .pktWrite _ _ _ _ _ bytes => decide (bytes.length ≤ 224)
  | .pktMailbox _ _ _ _ bytes => decide (bytes.length ≤ 48)
  | .bank3Request (.read a len) => decide (0 < len) && decide (len ≤ 64) && decide (a.toNat + len ≤ 0x800000)
  | .bank3Request (.write a bytes) =>
    decide (0 < bytes.length) && decide (bytes.length ≤ 64) && decide (a.toNat + bytes.length ≤ 0x800000)
  | .fnocRequest (.read a len) _ => nocKind a.toNat len
  | .fnocRequest (.write a bytes) _ => nocKind a.toNat bytes.length
  | _ => true

end Sys2Proof
end

