-- ==== Sys2Proof/Machine/State.lean ====
section
/-!
DEFINITION. The state of the module: every register, buffer, queue, counter, mode and pin the manual gives
it, as plain data, the queue of commands that wait, the reasons a step can stop, and the state after reset.

Sparse stores (plane memory, module memory, the register file, the control store, tables) are lists of
(key, value) pairs in one canonical form: keys strictly rising, and no value equal to what an unlisted key
reads as.
-/
namespace Sys2Proof.Machine

/-- No command of the module stops it with a fault: what the manual calls an error is a status, a flag, an
exception entry or a log entry of the next state. The type is closed and has no constructor: safe. -/
inductive Fault where
  deriving DecidableEq, Repr

/-- Why a command has no meaning here. -/
inductive Refusal where
  /-- Raised by the dispatch alone, for a command the model has no meaning for yet: safe, since nothing is
  claimed of a run that stops so. -/
  | notModelled (mnemonic : String)
  deriving DecidableEq, Repr

/-- The six modes (00, The six modes). -/
inductive Mode where
  | off
  | standby
  | load
  | run
  | degraded
  | bench
  deriving DecidableEq, Repr

/-! ## The array (02) -/

/-- The state of a damaged SEC-DED word: a single-bit error, delivered corrected, or an uncorrectable word,
delivered as stored (R46, R49). -/
inductive Damage where
  | single
  | uncorrectable
  deriving DecidableEq, Repr

/-- Latches and plane memory, in logical coordinates (02). -/
structure ArrayState where
  c : Plane
  d : Plane
  x : Plane
  m : Plane
  q : Plane
  /-- Plane number to plane; unlisted planes are 0. -/
  planes : List (Nat × Plane)
  /-- Damaged words of the physical plane memory, keyed
  ((tile row × 17 + physical tile column) × 64 + PE row within the tile) × 4096 + plane. -/
  damage : List (Nat × Damage)
  deriving DecidableEq, Repr

/-! ## The Helm (03, 04, 05, 06) -/

/-- Who submitted a kernel or a transfer (R103, R225). A timetable entry is named by its sailing and pass,
so that the entry of an abandoned pass is told from one of the current pass. -/
inductive Submitter where
  | timetable (sail : Sail) (pass : Nat) (idx : Nat)
  | firmware
  | queue (qp : BitVec 16) (pos : Nat)
  deriving DecidableEq, Repr

/-- A kernel as its argument block gives it (R102). -/
structure KernelReq where
  entry  : BitVec 15
  kid    : BitVec 16
  dbase  : BitVec 10
  trap   : BitVec 6
  rmode  : BitVec 2
  urgent : Bool
  args   : List Word
  owner  : Submitter
  /-- Set when the sailing the kernel belongs to was abandoned (R260). -/
  abandoned : Bool
  deriving DecidableEq, Repr

/-- The probe tracker of an open sequence or of one waiting for its commit (R88, R90, R151). -/
structure Tracker where
  seq  : Nat
  desc : Nat
  high : Option Nat
  /-- Of a closed sequence: the landing count at which its commit falls at the earliest (R152). -/
  due  : Nat
  deriving DecidableEq, Repr

/-- A running or preempted kernel's context (R84, R115). -/
structure KernelCtx where
  req   : KernelReq
  /-- Address of the microword that issues next. -/
  next  : BitVec 15
  /-- Address of the last issued microword. -/
  upc   : BitVec 15
  lc0   : BitVec 16
  lc1   : BitVec 16
  i0    : BitVec 16
  i1    : BitVec 16
  stack : List (BitVec 15)
  gor   : Bool
  slots : Vector (BitVec 21) 16
  track : Option Tracker
  /-- An ARRAY_FP event was raised (R106 status FPEVENT). -/
  fpev  : Bool
  /-- The END microword has issued; KERNEL_END follows (R106). -/
  ended : Bool
  /-- A preempted kernel's HLM_CMD.STOP, which waits for its resume (R110). -/
  stop  : Bool
  /-- The kernel has stopped with this status code and issues nothing more; KERNEL_END follows when its
  outstanding work has completed (R78, R80, R117). -/
  halt  : Option Nat
  deriving DecidableEq, Repr

/-- An outstanding user reduction, in issue order (R137, R139, R143). -/
structure Reduction where
  /-- none: a global OR; some n: a census into slot n. -/
  slot  : Option (BitVec 4)
  /-- Installation scope (RSCOPE), with its sequence number in the sailing (R456). -/
  inst  : Option Nat
  value : Nat
  /-- The instant of its issue, and the installation sailing in which it issued (R455). -/
  since : Nat
  sail  : Sail
  /-- The landing count at which it completes at the earliest (R137). -/
  due   : Nat
  deriving DecidableEq, Repr

/-- A probe result on its way to the Helm (R152). -/
structure ProbeRes where
  seq     : Nat
  offset  : Nat
  nonzero : Bool
  /-- The landing count at which it reaches the Helm at the latest (R152). -/
  due     : Nat
  deriving DecidableEq, Repr

/-- An ARRAY_FP event (R198, 06 event registers). -/
structure FpEvent where
  kid   : BitVec 16
  atEnd : Bool
  flags : BitVec 6
  lc0   : BitVec 16
  upc   : BitVec 15
  sail  : Sail
  deriving DecidableEq, Repr

/-- A HALOW that waits (R450, R451). -/
structure HaloWait where
  side  : Side
  first : Nat
  count : Nat
  since : Nat
  deriving DecidableEq, Repr

/-- Consecutive ACLK in which microwords left no read slot, and no write slot, of the even and of the odd sub-banks
(R45, R219). -/
structure NoSlot where
  readEven  : Nat
  readOdd   : Nat
  writeEven : Nat
  writeOdd  : Nat
  deriving DecidableEq, Repr

/-- Every slot was free. -/
def NoSlot.zero : NoSlot := ⟨0, 0, 0, 0⟩

/-- The Helm's state. -/
structure HelmState where
  /-- Control store, unlisted words 0 (R118). -/
  store   : List (Nat × BitVec 192)
  /-- Addresses of the microwords whose stored parity does not hold, each with the 24-bit groups that may be
  the bad ones: those not written since it failed (R117). -/
  parityBad : List (Nat × BitVec 8)
  /-- Descriptor table, unlisted entries 0 (R97, R101). -/
  desc    : List (Nat × Word)
  nq      : List KernelReq
  uq      : List KernelReq
  run     : Option KernelCtx
  preempted : Option KernelCtx
  red     : List Reduction
  probes  : List ProbeRes
  commits : List Tracker
  /-- Number of probe sequences opened. -/
  seqs    : Nat
  halow   : Option HaloWait
  /-- The halo wait of the microword at the sequencer's address has ended, and it has not issued. -/
  waited  : Bool
  fpq     : List FpEvent
  /-- Codes posted by NOTIFY (R92). -/
  notifyQ : List (BitVec 16)
  /-- KID and status of the kernels that firmware submitted and that have ended (R106); no register shows it. -/
  told    : List (BitVec 16 × BitVec 4)
  /-- A landing has been reached and its requests are not yet weighed (R109, R110). -/
  landing : Bool
  /-- HLM_CMD.STOP for the running kernel. -/
  stopReq : Bool
  /-- Warden hold requested, and taken (R110 priority 2). -/
  holdReq : Bool
  held    : Bool
  /-- Debug halt requested, and taken (R567). -/
  dbgReq  : Bool
  dbgHalt : Bool
  /-- A STEP has been given and its microword has not issued (R567). -/
  dbgStep : Bool
  /-- ACLK since the last landing that the Helm's own actions account for, and whether LANDLATE was set for this
  gap (R111). -/
  gap     : Nat
  gapLate : Bool
  /-- ACLK of this gap that had passed at the instant gapAt, from which time counts on at the present clock. -/
  gapBase : Nat
  gapAt   : Nat
  /-- The 3.0 µs pause after a clock change runs, until this instant (R60). -/
  paused  : Bool
  pauseEnd : Nat
  /-- The next microword is held for one ACLK owed to the Loader (R220). -/
  steal   : Bool
  /-- How long the Loader has found no slot of each kind (R219, R220). -/
  noSlot  : NoSlot
  deriving DecidableEq, Repr

/-! ## The Loader (07) -/

/-- A transfer that the Loader has accepted. -/
structure Transfer where
  blk   : Block32
  load  : Bool
  owner : Submitter
  deriving DecidableEq, Repr

/-- What a transfer may change, as it stands at one instant: the planes and the bytes of module memory. -/
structure Snapshot where
  planes : List (Nat × Plane)
  bytes  : List (Nat × Byte)
  deriving DecidableEq, Repr

/-- The transfer that runs: what its completion will report and commit (R222–R224, R230). -/
structure Running where
  tr     : Transfer
  status : BitVec 4
  /-- The live width its completion commits: descriptor and width. -/
  width  : Option (Nat × Nat)
  moved  : Nat
  /-- It started in the pause of a clock change and waits for plane access (R221). -/
  waits  : Bool
  /-- The planes of a load that waits, as fetched from memory. -/
  fetched : List Plane
  /-- Planes and memory before and after its data moved, which a discard may mix (R231). -/
  before : Snapshot
  after  : Snapshot
  deriving DecidableEq, Repr

/-- The Loader's state (R225, R233, R234). -/
structure LdrState where
  queue   : List Transfer
  run     : Option Running
  /-- Bytes moved since LOAD, which LDR_KIB counts in KiB. -/
  bytes   : Nat
  /-- Base of the checkpoint ordered last, and the planes of the checkpoint completed last. -/
  ckBase  : Nat
  ckPlanes : List Nat
  /-- Checkpoint ordered and not yet complete: the planes it copies and its sailing. -/
  ckpt    : Option (List Nat × Sail)
  /-- Restore in progress, with the planes it restores. -/
  restore : Option (List Nat)
  deriving DecidableEq, Repr

/-! ## The Timetable unit (08) -/

/-- A timetable entry (R247). -/
structure Entry where
  type     : BitVec 4
  cpl      : Bool
  ack      : Bool
  cqp      : BitVec 16
  start    : Nat
  deadline : Nat
  tag      : BitVec 16
  payload  : Block32
  deps     : List Nat
  deriving DecidableEq, Repr

/-- A timetable (R246). -/
structure Timetable where
  period  : Nat
  policy  : BitVec 2
  cover   : BitVec 2
  worst   : Nat
  pmask   : BitVec 4096
  entries : List Entry
  deriving DecidableEq, Repr

/-- State of an entry in the current pass (TTB_ESTATn). `notifying` is a released NOTIFY entry that waits
for room in the notification queue, `acking` one that waits for its acknowledgement; both read PENDING and
SUBMITTED respectively. -/
inductive EState where
  | pending
  | notifying
  | submitted
  | acking
  | done
  | failed
  | depfail
  | abandoned
  | unused
  deriving DecidableEq, Repr

/-- One entry of the current pass. -/
structure EStat where
  state : EState
  late  : Bool
  ustat : BitVec 4
  /-- Its completion has been posted, or it posts none (R248). -/
  posted : Bool
  /-- The instant at which it finished. -/
  doneAt : Nat
  deriving DecidableEq, Repr

/-- A completion of a timetable entry that waits to be posted (R290). -/
structure TtbCompletion where
  qp     : BitVec 16
  tag    : BitVec 16
  idx    : Nat
  status : BitVec 8
  ustat  : BitVec 4
  /-- The sailing, pass and flags it is stamped with when its sailing was skipped (R260); none: those at its
  posting (R289). -/
  past   : Option (Sail × Nat × BitVec 9)
  /-- The entry belongs to the pass that runs. -/
  live   : Bool
  deriving DecidableEq, Repr

/-- A notification record (R595). -/
structure NtfRecord where
  idx  : Nat
  tag  : BitVec 16
  body : Block32
  sail : Sail
  pass : Nat
  deriving DecidableEq, Repr

/-- TTB_STAT.PHASE (08). -/
inductive Phase where
  | notick
  | checkpoint
  | running
  | closed
  | extending
  | replay
  deriving DecidableEq, Repr

/-- A pending timetable switch (R251). -/
structure Switch where
  slot : BitVec 4
  tgt  : Sail
  asap : Bool
  /-- The TIMETABLE_BIND descriptor it came from. -/
  bind : Option (BitVec 16 × Nat)
  /-- The instant of its acceptance. -/
  since : Nat
  deriving DecidableEq, Repr

/-- The Timetable unit's state. -/
structure TtbState where
  sail    : Sail
  /-- The sailing whose pass runs: the current one, or the missed one under EXTEND (R260). -/
  passSail : Sail
  active  : BitVec 4
  slots   : List (Nat × Option Timetable)
  /-- Contents committed to the active slot, taken at the next tick (R250). -/
  staged  : Option Timetable
  /-- The timetable of the pass that runs: the active one as it stood at its tick. -/
  cur     : Timetable
  pend    : Option Switch
  phase   : Phase
  /-- Flags of the current sailing (TTB_STAT.FLAGS), and of the sailing whose pass runs. -/
  flags   : BitVec 9
  passFlags : BitVec 9
  srcUsed : BitVec 2
  srcLost : Bool
  /-- Committed TTB_SRC, and the settings of the next tick while a commit waits for it (R242). -/
  src     : Word
  srcNext : Option Word
  /-- The instant of the previous tick, or of the entry to RUN before the first one (R244). -/
  lastTick : Nat
  ticked  : Bool
  /-- The instants of the pin ticks that accepted edges ordered, the earliest first (R238). -/
  tickDue : List Nat
  base    : Nat
  pass    : Nat
  tickAt  : Nat
  est     : List EStat
  /-- The pass has ended: its marker has been sent, or its sailing was abandoned. -/
  marked  : Bool
  /-- The sailing whose marker was sent last (R15, R119). -/
  sentFor : Option Sail
  /-- The instant from which the pass may release entries: its base, or the end of what held it (R254, R261). -/
  openAt  : Nat
  /-- The first pass's checkpoint has completed or ended (R257). -/
  ckDone  : Bool
  /-- The checkpoint waits until no kernel of an abandoned sailing remains (R260). -/
  ckWait  : Bool
  /-- A repair's fault stop has cut the pass and its replay has not begun (R262). -/
  cut     : Bool
  outq    : List TtbCompletion
  ntf     : List NtfRecord
  tload   : Option (BitVec 4)
  syncOut : Bool
  /-- FRAME_SYNC_OUT falls at this instant (R243). -/
  syncEnd : Option Nat
  deriving DecidableEq, Repr

/-! ## The fault manager (15) -/

/-- Events of one instance of a source (R497, R498): the sailings of its most recent events, newest first,
at most 15. -/
structure FltHist where
  recent  : List Sail
  total   : Nat
  lasting : Bool
  deriving DecidableEq, Repr

/-- A fault log entry (R523). -/
structure LogEntry where
  kind   : BitVec 4
  src    : BitVec 8
  inst   : BitVec 9
  detail : Word
  sail   : Sail
  deriving DecidableEq, Repr

/-- A report that a unit has sent and that the fault manager has not yet taken (FAULT_EVENT). -/
structure FltReport where
  src    : BitVec 8
  inst   : BitVec 9
  detail : Word
  deriving DecidableEq, Repr

/-- One order joined to the running repair (R513): the tile to substitute, or none for a replay under R504,
with the event that ordered it. -/
structure RepairOrder where
  tile : Option (Nat × Nat)
  ev   : FltReport
  deriving DecidableEq, Repr

/-- Step of a repair (R509). -/
inductive RepairStep where
  /-- Fault stop ordered; the Helm has not reached its landing. -/
  | stopping
  /-- Stopped; the substitution is being made. -/
  | substituting
  /-- The Loader restores. -/
  | restoring
  deriving DecidableEq, Repr

/-- How the order fell (R513). -/
inductive RepairCase where
  | full
  | inLoad
  | noCkpt
  | rollback
  deriving DecidableEq, Repr

/-- The repair that runs (R509). -/
structure Repair where
  step   : RepairStep
  kind   : RepairCase
  orders : List RepairOrder
  start  : Nat
  /-- Orders that came from step 5 on; they start a fault stop once the replay base is set. -/
  later  : List RepairOrder
  /-- Earliest end of the substitution: a spare's clear takes 2048 ACLK (R509 step 3). -/
  clearEnd : Nat
  /-- The sailing whose pass ran, or had ended, at the order (R261, R513). -/
  sail     : Sail
  deriving DecidableEq, Repr

/-- The fault manager's state; its plain registers stand in the register file. -/
structure FltState where
  hist    : List (Nat × FltHist)
  log     : List LogEntry
  reports : List FltReport
  repair  : Option Repair
  /-- Committed FLT_SRC0–19 and FLT_SWD, and the FLT_SWD the Warden takes at the next tick. -/
  src     : List (Nat × Word)
  swd     : Word
  swdNext : Word
  /-- Self-test: step within the set, failed tiles whose failing step must run again, and the spares that
  failed their last visit (R506, R507, R510). -/
  bistStep : Nat
  spareBad : List Nat
  /-- The self-test step that began last runs until this instant (R506). -/
  bistEnd  : Nat
  /-- Repair record writes that wait (R512). -/
  recordDue : Bool
  deriving DecidableEq, Repr

/-! ## The queue engine and the PCIe endpoint (09) -/

/-- State of a queue pair (QUE_QPINFO0.STATE). -/
inductive QpStatus where
  | free
  | active
  | error
  | draining
  deriving DecidableEq, Repr

/-- A fetched descriptor that is not dispatched, at its ring position counted without wrapping (R280, R294). -/
structure Fetched where
  pos      : Nat
  raw      : Raw64
  /-- HOLD was set and no RELEASE entry has passed it to dispatch. -/
  held     : Bool
  /-- Its words failed parity in a fabric block (R478). -/
  bad      : Bool
  deriving DecidableEq, Repr

/-- What a dispatched descriptor waits for. -/
inductive Work where
  /-- The Helm or the Loader. -/
  | unit
  /-- A MOVE whose accesses have been made, with its status. -/
  | move (status : BitVec 8)
  | bind
  /-- The descriptors a FENCE waits for, its condition code and its sailing (R286). -/
  | fence (waits : List (Nat × Nat)) (cond : BitVec 8) (sail : Sail)
  | mailbox
  /-- Packets sent, the sequence number of the last, and the first refusal status (R288, R460). -/
  | link (seqs : List Nat) (status : BitVec 8)
  /-- A DELETE_QP that waits for its pair (R298). -/
  | deletePair (qp : BitVec 16)
  /-- Finished with this status, unit status and result; its completion waits for D0 (R301). -/
  | kept (sc : BitVec 8) (ustat : BitVec 4) (result : Word)
  deriving DecidableEq, Repr

/-- A dispatched descriptor, which holds one CQ slot (R279). -/
structure Dispatched where
  pos    : Nat
  raw    : Raw64
  work   : Work
  /-- Its unit's report is to be dropped (R298–R300: completions discarded). -/
  silent : Bool
  deriving DecidableEq, Repr

/-- A queue pair's context (09, QUE_QPINFO). -/
structure Pair where
  st      : QpStatus
  ctype   : BitVec 2
  prio    : BitVec 2
  client  : BitVec 20
  sqBase  : BitVec 64
  cqBase  : BitVec 64
  sqSize  : Nat
  cqSize  : Nat
  sqHead  : Nat
  sqTail  : Nat
  cqHead  : Nat
  cqTail  : Nat
  phase   : Bool
  vector  : BitVec 11
  noirq   : Bool
  modcnt  : Nat
  modtime : Nat
  /-- Completions since the last signal, and when the first of them was written (R302). -/
  unsig   : Nat
  unsigAt : Nat
  fetched : List Fetched
  disp    : List Dispatched
  /-- Its CREATE_QP completion has been written, so doorbells take effect (R297). -/
  open_   : Bool
  /-- PAIR_FREED is to be posted when the drain ends (R300). -/
  tell    : Bool
  /-- Descriptors fetched so far: the ring position of the next one, counted without wrapping. -/
  taken   : Nat
  deriving DecidableEq, Repr

/-- A free pair. -/
def Pair.none : Pair :=
  { st := .free, ctype := 0, prio := 0, client := 0, sqBase := 0, cqBase := 0, sqSize := 0, cqSize := 0,
    sqHead := 0, sqTail := 0, cqHead := 0, cqTail := 0, phase := false, vector := 0, noirq := false,
    modcnt := 0, modtime := 0, unsig := 0, unsigAt := 0, fetched := [], disp := [], open_ := false,
    tell := false, taken := 0 }

/-- A message in the mailbox queue (R287, R288): a local descriptor, or a message from a Ferry node. -/
structure MailMsg where
  raw    : Raw64
  id     : BitVec 16
  remote : Bool
  pos    : Nat
  deriving DecidableEq, Repr

/-- An MSI-X table entry, with its pending bit. -/
structure MsixEntry where
  addr    : BitVec 64
  data    : Word
  masked  : Bool
  pending : Bool
  deriving DecidableEq, Repr

/-- A vector after reset: masked, nothing pending. -/
def MsixEntry.none : MsixEntry := { addr := 0, data := 0, masked := true, pending := false }

/-- The queue engine and the PCIe endpoint; plain registers stand in the register file. -/
structure QueState where
  pairs   : List (Nat × Pair)
  mail    : List MailMsg
  /-- Asynchronous events that wait: code and subject (R291). -/
  events  : List (BitVec 8 × BitVec 16)
  msix    : List (Nat × MsixEntry)
  funcMask : Bool
  linkUp  : Bool
  pasidEn : Bool
  d3      : Bool
  perst   : Bool
  /-- The pair served last at each priority, for the round robin (R292). -/
  rr      : List (Nat × Nat)
  /-- The PCIe link and the host's settings for it (R266). -/
  link    : LinkConfig
  /-- AER errors reported (R271): Uncorrectable Internal Error, Completer Abort, Unsupported Request, Poisoned TLP
  Received, Completion Timeout. -/
  aerInternal : Bool
  aerAbort    : Bool
  aerUnsupported : Bool
  aerPoisoned : Bool
  aerTimeout  : Bool
  /-- The function's Received Master Abort and Received Target Abort. -/
  masterAbort : Bool
  targetAbort : Bool
  /-- The completions kept in D3hot, by pair and position, in the order their descriptors finished (R293, R301). -/
  kept    : List (Nat × Nat)
  /-- Where a pair of the pool starts to count its descriptors: above every descriptor of the pairs freed so far, so
  that a pair and a position name one descriptor (R280). -/
  posBase : Nat
  deriving DecidableEq, Repr

/-! ## Memory and the on-chip network (12) -/

/-- Where a request that the Pilot made goes, or an error: the response codes of R420. -/
inductive Resp where
  | ok
  | collided
  | dead
  | unmapped
  | dataerr
  | protect
  | timeout
  deriving DecidableEq, Repr

/-- Statistics of one initiator NI (12, NOC_STREQ, NOC_STBYTE, NOC_HIST). -/
structure NiStat where
  req   : Nat
  bytes : Nat
  hist  : List Nat
  deriving DecidableEq, Repr

/-- No traffic. -/
def NiStat.none : NiStat := { req := 0, bytes := 0, hist := [0, 0, 0, 0, 0, 0, 0, 0] }

/-- Module memory and the network. Addresses are module addresses (R408). -/
structure MemState where
  /-- Bytes; unlisted bytes are 0 (R396, R401). -/
  bytes  : List (Nat × Byte)
  /-- Damaged 8-byte words, keyed by module address ÷ 8. -/
  damage : List (Nat × Damage)
  /-- Corrected words whose write-back is pending, by module address ÷ 8 (R390, R399). -/
  wb     : List Nat
  /-- Lines of module DRAM that the Pilot's data cache holds dirty, by address ÷ 64, with the bytes that
  stand in DRAM (R404); `bytes` holds the Pilot's latest stores. -/
  dirty  : List (Nat × Raw64)
  /-- Route entries that differ from the shortest route of LOAD, keyed source × 64 + destination. -/
  routes : List (Nat × Option Word)
  stats  : List (Nat × NiStat)
  deriving DecidableEq, Repr

/-! ## The Pilots (10, 11) -/

/-- A save set (R308). -/
structure SaveSet where
  pc    : Word
  st    : Word
  rsp   : Word
  cause : Word
  val   : Word
  deriving DecidableEq, Repr

/-- A save set at LOAD. -/
def SaveSet.none : SaveSet := { pc := 0, st := 0, rsp := 0, cause := 0, val := 0 }

/-- What produces a result that is not visible yet: a load from Bank 0, a pipelined FPU instruction, the divide
and square-root unit, the multiplier, the divider. -/
inductive FlightKind where
  | load
  | fpu
  | slow
  | mul
  | div
  deriving DecidableEq, Repr

/-- A result in flight (R321, R322, R348, R353): the registers and FCSR flags it will write. At most `left`
instructions still issue before one that sees it. -/
structure Flight where
  kind   : FlightKind
  writes : List (BitVec 5 × Word)
  flags  : BitVec 6
  left   : Nat
  deriving DecidableEq, Repr

/-- The Pilot pair as software sees it. -/
structure PilotState where
  gpr   : Vector Word 32
  pc    : Word
  cy    : Bool
  ie    : Bool
  pl    : BitVec 2
  rsp   : Word
  rslo  : Word
  rshi  : Word
  fcsr  : Word
  vbase : Word
  /-- PCLK since the entry to LOAD, modulo 2^64 (R309). -/
  cyc   : BitVec 64
  cycHi : Word
  solo  : Bool
  survivor : Bool
  save1 : SaveSet
  save2 : SaveSet
  save3 : SaveSet
  /-- The reserved 64-byte block, as module address ÷ 64 (R329). -/
  resv  : Option Nat
  /-- Results in flight, in the order of issue. -/
  flights : List Flight
  /-- The fetch queue: the words fetched for the instructions from pc on (R363). -/
  fq    : List Word
  /-- The Pilots have been started by the boot (16, start-up step 10). -/
  started : Bool
  idle    : Bool
  halted  : Bool
  frozen  : Bool
  /-- The Warden alarms that are pending, by DETAIL (R365, R370), in the order raised. -/
  alarms  : List (BitVec 8)
  /-- The requests of lines 0 and 4 that a read ends (R372). -/
  recReq  : Bool
  ldrReq  : Bool
  /-- The watchdog: STAGE, and the microseconds that remain at the instant `wdogAt` (R378). -/
  wdogEn    : Bool
  wdogStage : Bool
  wdogCnt   : Nat
  wdogAt    : Nat
  deriving DecidableEq, Repr

/-! ## The Ferry links (13) -/

/-- FRY_PSTAT.STATE. -/
inductive PortPhase where
  | disabled
  | idle
  | training
  | up
  | miswired
  | failed
  | sleep
  deriving DecidableEq, Repr

/-- A message between modules (R431): tick messages, tick reports, verdicts and contributions; halo planes;
announcements of discovery and the rejoin; and addressed packets (R459). -/
inductive LinkMsg where
  | tick (msg : TickMsg)
  | tickReport (node : BitVec 16) (sail : Sail)
  | verdict (msg : VerdictMsg)
  /-- A module's part of the k-th installation-scope reduction of an installation sailing (R11, R455). -/
  | contribution (node : BitVec 16) (sail : Sail) (k : Nat) (isCensus : Bool) (value : Nat)
  | halo (side : Side) (slot : Nat) (sail : Sail) (seq : Nat) (bits : BitVec 1024)
  /-- Node ID, serial number and ROOT bit (R433). -/
  | announce (node : BitVec 16) (serial : BitVec 80) (root : Bool)
  | rejoinAsk (node : BitVec 16)
  | rejoinAnswer (node : BitVec 16) (target : Sail) (mepoch : BitVec 16)
  | packet (src dst : BitVec 16) (seq : Nat) (last : Bool) (mailbox : Option Word) (addr : BitVec 64)
      (bytes : List Byte)
  | packetAck (src dst : BitVec 16) (seq : Nat) (status : BitVec 8)
  | doorbell (src dst : BitVec 16) (qp : BitVec 16) (cqHead : Bool) (val : Word)
  | notice (src dst : BitVec 16) (qp : BitVec 16)
  deriving DecidableEq, Repr

/-- A sent flit that the far end has not acknowledged (R430). -/
structure SentFlit where
  seq     : Byte
  msg     : LinkMsg
  payload : BitVec 1920
  replays : Nat
  deriving DecidableEq, Repr

/-- A Ferry port: training (R426), link layer (R429–R431) and the counts of the running interval (R502). -/
structure PortState where
  phase    : PortPhase
  rate     : BitVec 2
  reversed : Bool
  reason   : Byte
  farNode  : BitVec 16
  /-- The neighbour came up in LOAD: this module's installation sailing of that instant, until a verdict of a later
  sailing tells whether the neighbour is a member (R462). -/
  inLoad   : Option Sail
  lat      : BitVec 16
  /-- Sequence number of the next flit sent, and of the last flit received in order. -/
  txSeq    : Byte
  rxSeq    : Byte
  sent     : List SentFlit
  /-- Messages that wait for a credit or for room in the replay buffer (R431). -/
  waiting  : List LinkMsg
  /-- Flit credits in hand per class, in CLASS order, and those to be returned to the far end. -/
  credits  : List Nat
  owed     : List Nat
  /-- The instant at which the port entered its phase, and that of its last calibration (R427). -/
  since    : Nat
  calAt    : Nat
  /-- The instants of the uncorrectable codewords of the last 1 ms, and whether they have been more than 16 (R428). -/
  ucAt     : List Nat
  ucOver   : Bool
  /-- Uncorrectable codewords and replays of the running 1 ms interval, and its start (R502). -/
  ivUc     : Nat
  ivReplay : Nat
  ivAt     : Nat
  deriving DecidableEq, Repr

/-- A port in LOAD, before it sees signal. -/
def PortState.idle : PortState :=
  { phase := .idle, rate := 0, reversed := false, reason := 0, farNode := 0, inLoad := none, lat := 0,
    txSeq := 0,
    rxSeq := 255, sent := [], waiting := [], credits := [0, 0, 0, 0], owed := [0, 0, 0, 0], since := 0, calAt := 0,
    ucAt := [], ucOver := false, ivUc := 0, ivReplay := 0, ivAt := 0 }

/-- A packet whose acknowledgement is awaited (R459, R460). -/
structure LinkPacket where
  seq    : Nat
  node   : BitVec 16
  qp     : BitVec 16
  pos    : Nat
  last   : Bool
  sentAt : Nat
  deriving DecidableEq, Repr

/-- A contribution of another member to an installation-scope reduction (R456). -/
structure Contribution where
  node     : BitVec 16
  /-- Installation sailing. -/
  sail     : Sail
  k        : Nat
  isCensus : Bool
  value    : Nat
  deriving DecidableEq, Repr

/-- The Ferry block's state; plain registers stand in the register file. -/
structure FryState where
  ports   : Vector PortState 4
  node    : BitVec 16
  /-- A discovery has ended since LOAD (R433). -/
  discovered : Bool
  /-- This module has announced itself in the discovery that runs (R433). -/
  announced : Bool
  /-- Every other module that discovery found, with the port of a path with the fewest hops (R433). -/
  known   : List NodeInfo
  /-- The ports whose neighbour takes its upstream over that link, as discovery found (R438). -/
  children : List (BitVec 2)
  /-- Node IDs announced by two modules with different serial numbers (R434). -/
  dups    : List (BitVec 16)
  selfDup : Bool
  /-- FRY_TREE as the last discovery applied it. -/
  tree    : Word
  upPort  : Option (BitVec 2)
  upDepth : Nat
  rootConf : Bool
  deep    : Bool
  tickLate : Bool
  mepoch  : BitVec 16
  armed   : Bool
  sailofs : Sail
  out     : Bool
  /-- A tick message that orders a tick at an instant (R439). -/
  due     : Option (Nat × TickMsg)
  /-- The root has sent the tick message of the coming tick (R438). -/
  tickSent : Bool
  /-- The answer to a rejoin request: target installation sailing and MEPOCH (R447). -/
  rejoin  : Option (Sail × BitVec 16)
  /-- Tick reports of the open sailing, at the root (R444). -/
  reports : List (BitVec 16)
  /-- Installation sailing whose verdict is to be sent, with the instant of its tick. -/
  collect : Option (Sail × Nat)
  /-- Largest member count since LOAD. -/
  maxMembers : Nat
  /-- The verdict in force: installation sailing, excluded nodes. -/
  verdict : Option (Sail × List (BitVec 16))
  /-- Earlier verdicts, of sailings whose reductions were still outstanding when the next verdict came (R456). -/
  past    : List (Sail × List (BitVec 16))
  /-- The tick of the sailing whose verdict is awaited (R445). -/
  awaiting : Option Nat
  /-- Halo slots, keyed side × 64 + slot (R448), their fresh bits, those that become fresh at the next tick,
  the HALOW counts E and the post counts of the sailing (R448–R450). -/
  slots   : List (Nat × BitVec 1024)
  fresh   : List Nat
  early   : List Nat
  waits   : List (Nat × Nat)
  posts   : List (Nat × Nat)
  /-- Port NIs whose next remote write meets no response in time (R418, R421). -/
  late    : List Nat
  /-- Number of installation-scope reductions issued in the sailing, and what came in for them. -/
  reds    : Nat
  contrib : List Contribution
  links   : List LinkPacket
  linkSeq : Nat
  /-- First failing status of the LINK_SEND that arrives from a node, keyed by node (R460). -/
  rxStatus : List (Nat × Nat)
  /-- Committed FRY_TREE, in effect from the next discovery (R437). -/
  treeNext : Word
  deriving DecidableEq, Repr

/-! ## The fabric (14) -/

/-- FAB_RSTAT.STATE. -/
inductive RegionPhase where
  | empty
  | loading
  | ready
  | running
  deriving DecidableEq, Repr

/-- A region: its frames by index, the indices of RAM contents written since the last GO, where a GO stands, and the
flip-flops of its cells (R466, R489). -/
structure Region where
  phase  : RegionPhase
  /-- Frames held, indices rising. -/
  frames : List (Nat × BitVec 8128)
  newRam : List Nat
  /-- An accepted GO reads the configuration back (R489), since when, and the instant at which the region began to run. -/
  going  : Bool
  goAt   : Nat
  runAt  : Nat
  /-- Its pins have left pad default. -/
  pinsOn : Bool
  /-- Flip-flop of the cell at row i of column c: bit 128 c + i. -/
  ffs    : BitVec 16384
  /-- What the SAIL primitive shows in the region: SAIL, TICK, and the cycles of its tree until a tick reaches it
  (R468). -/
  sail   : Sail
  tick   : Bool
  tickIn : Option Nat
  deriving DecidableEq, Repr

/-- A region after LOAD. -/
def Region.none : Region :=
  { phase := .empty, frames := [], newRam := [], going := false, goAt := 0, runAt := 0,
    pinsOn := false, ffs := 0, sail := 0, tick := false, tickIn := Option.none }

/-- A block's queue: its words with the state of their parity, oldest first, and the descriptor or the
completion in passage (R470, R476, R477). -/
structure QBlock where
  words   : List (BitVec 72 × Bool)
  /-- Words of the descriptor that user logic is pushing. -/
  partialDesc : List (BitVec 72 × Bool)
  /-- Words still to discard of a descriptor that met a full ring. -/
  skip    : Nat
  /-- The first word of the head completion has been popped. -/
  halfPop : Bool
  /-- The pairs whose completions stand in a CQ block, oldest first. -/
  owners  : List Nat
  pair    : Option (BitVec 16)
  deriving DecidableEq, Repr

/-- An empty queue. -/
def QBlock.none : QBlock :=
  { words := [], partialDesc := [], skip := 0, halfPop := false, owners := [], pair := Option.none }

/-- The configuration engine's run (R486). -/
structure CfgRun where
  bank3  : Bool
  addr   : Nat
  region : Nat
  left   : Nat
  deriving DecidableEq, Repr

/-- FAB_CAMSTAT.STATE. -/
inductive CamPhase where
  | off
  | lp
  | hs
  | ulps
  deriving DecidableEq, Repr

/-- A camera port: its committed settings and its state. -/
structure CamPort where
  conf     : Word
  phase    : CamPhase
  deskewed : Bool
  deriving DecidableEq, Repr

/-- A clock tree whose source or divider changes (R484): its old setting; whether it gives 0 since a falling edge of the
old output, with the rising edges of the new output since then; and the instant of the change or of the old output's
last edge. -/
structure TreeSwitch where
  region : Nat
  tree   : Nat
  old    : Nat
  held   : Option Nat
  since  : Nat
  deriving DecidableEq, Repr

/-- The fabric's state; plain registers stand in the register file. -/
structure FabState where
  regions : List (Nat × Region)
  engine  : Option CfgRun
  /-- Committed FAB_RCLKr, FAB_QCFGn and FAB_QTHRn. -/
  rclk    : List (Nat × Word)
  qcfg    : List (Nat × Word)
  qthr    : List (Nat × Word)
  blocks  : List (Nat × QBlock)
  /-- What each RAM block holds outside the queue modes (R489). -/
  ram     : List (Nat × BitVec 36864)
  cams    : Vector CamPort 4
  /-- Trees of RUNNING regions whose source or divider changes (R484). -/
  switching : List TreeSwitch
  /-- The sailing number of the last tick, which SAIL takes (R468). -/
  sail    : Sail
  asleep  : Bool
  /-- What FNOC or BANK3 returned to user logic last: response code and data. -/
  answer  : Option (Resp × List Byte)
  deriving DecidableEq, Repr

/-! ## The Warden, supply, boot and flash (16) -/

/-- What ordered a shutdown or a mode change (R535, highest first). -/
inductive Order where
  | sleep (cause : BitVec 8)
  | restart
  | bench
  | degrade
  | recover
  deriving DecidableEq, Repr

/-- An array clock request (R252, R60). -/
structure AclkReq where
  n    : Nat
  tgt  : Sail
  asap : Bool
  deriving DecidableEq, Repr

/-- A flash window operation that runs (R548). -/
inductive FlashOp where
  | read (page : Nat)
  | program (page : Nat)
  | erase (sector : Nat)
  deriving DecidableEq, Repr

/-- A write of the tag area: when it came, whether over SMBus, its first byte and its bytes (R543). -/
structure TagWrite where
  came  : Nat
  smb   : Bool
  first : Nat
  bytes : List Byte
  deriving DecidableEq, Repr

/-- The Warden's state: supply, wake, boot, HEALTHY and its watchdog, tag area, SMBus and boot flash. -/
structure WdnState where
  /-- VIN at the pin, in mV. -/
  pinVin   : BitVec 16
  /-- The readings of PWR_VIN, PWR_TEMP and PWR_POWER. -/
  vin      : BitVec 16
  vinMin   : BitVec 16
  tempJ    : BitVec 16
  tempW    : BitVec 16
  power    : BitVec 16
  /-- VIN fell below 5.8 V at this instant and the hold-up runs (R529). -/
  holdup   : Option Nat
  /-- Instant from which VIN has stood between 4.5 V and 5.0 V. -/
  sagging  : Option Nat
  ign      : Bool
  /-- Instant at which IGN_WAKE, high now, has been high for 10 ms (R533). -/
  ignDue   : Nat
  /-- IGN_WAKE must fall before it wakes the module (R533). -/
  ignBlocked : Bool
  /-- The IGNOFF timer's end (R534). -/
  ignOff   : Option Nat
  /-- A wake accepted, with its WDN_STAT.WAKE code, in its debounce or waiting for the rails. -/
  waking   : Option (BitVec 4)
  /-- The rails rise after a debounce, or after a module reset, and HX1 is in reset. -/
  rails    : Bool
  /-- A module reset of 1 ms runs (R532). -/
  resetting : Bool
  /-- After a thermal shutdown: no wake before this instant, nor while the Warden is hot (R544). -/
  thermal  : Option Nat
  /-- The Warden's own sensor read above 95 °C when it was last read after a thermal shutdown (R544). -/
  wardenHot : Bool
  /-- The end of the debounce, of the rails' settling or of the module reset does not come before this instant
  (R531–R533). -/
  dueAt    : Nat
  /-- The last shutdown lets IGN_WAKE standing high wake the module again (R533). -/
  rewake   : Bool
  cause    : BitVec 8
  wake     : BitVec 4
  /-- Boot: image running or last tried, images tried, result code, calibration flags, straps. -/
  image    : BitVec 1
  tries    : Nat
  bootCode : BitVec 8
  cal      : BitVec 8
  straps   : Straps
  /-- NODE_STRAP3–NODE_STRAP0 as sampled at the change from OFF to STANDBY (R578). -/
  smbNode  : BitVec 4
  /-- The header has been accepted and its sections stream. -/
  booting  : Bool
  verified : Bool
  /-- Images still to be tried, the next one first. -/
  others   : List (BitVec 1)
  /-- BOOTLIM expiries since the wake (R532). -/
  limits   : Nat
  /-- Instant at which BOOTLIM expires. -/
  bootlim  : Option Nat
  /-- Slot that the image names for the first tick, and the images' expected control store. -/
  slot0    : BitVec 4
  selfTested : Bool
  pilotBad : List Bool
  /-- A Pilot failed at boot, or a takeover, or a lost tile row, keeps DEGRADED (R532). -/
  degradedFor : Bool
  orders   : List Order
  /-- A BENCH session in LOAD orders BENCH for the first tick (R559). -/
  benchFirst : Bool
  aclkReq  : Nat
  aclkPend : Option AclkReq
  cap      : Nat
  coolTicks : Nat
  aclkEff  : Nat
  healthy  : Bool
  pulse    : Bool
  /-- Held after a failed arbitration (R516). -/
  held     : Bool
  expired  : Bool
  /-- No marker may raise HEALTHY again before LOAD. -/
  noHealth : Bool
  /-- Clock comparisons in a row that missed (R521). -/
  clkMiss  : Nat
  /-- Instant of the next clock comparison, once the spacing has begun (R521). -/
  clkNext  : Option Nat
  /-- The sailing watchdog: sailings without a marker, and the timer's end (R517). -/
  unmarked : Nat
  markerSince : Bool
  swdAt    : Option Nat
  /-- Armed, and no tick has come since (R518). -/
  swdFirst : Bool
  tags     : List (Nat × Byte)
  tagDirty : Bool
  /-- The flash write that runs, with the bytes that it writes; the writes that wait for it to end, the oldest first; and
  the last SMBus write (R543). -/
  tagBusy  : Option (List (Nat × Byte))
  tagWaits : List TagWrite
  tagSmb   : Option TagWrite
  /-- The two flash copies of the tag area, none where one is invalid, and the one written next (R543). -/
  tagA     : Option (Nat × List (Nat × Byte))
  tagB     : Option (Nat × List (Nat × Byte))
  tagNextB : Bool
  tagPtr   : Nat
  alertMask : Byte
  alert    : Byte
  /-- The two copies of the repair record in boot flash: sequence number and the tile maps; none where a copy
  is invalid (R512). -/
  recordA  : Option (Nat × List Word)
  recordB  : Option (Nat × List Word)
  /-- What the valid control block of boot flash says: ACTIVE and TRIAL; none: no valid copy (16). -/
  control  : Option (BitVec 1 × Bool)
  /-- Firmware version of the image that runs (IVER). -/
  iver     : Word
  /-- Values that user calibration has set, factory value and clamped delta together: (ITEM, INDEX) as ITEM × 65536 +
  INDEX; every other one holds its factory value (R542). -/
  calib    : List (Nat × Int)
  /-- Boot flash outside the Warden's own ranges, unlisted bytes 0xFF; pages programmed since their last erase. -/
  flash    : List (Nat × Byte)
  programmed : List Nat
  flashOp  : Option FlashOp
  flashCode : BitVec 4
  deriving DecidableEq, Repr

/-! ## Debug access (17) -/

/-- A word that a full gangway register discarded: when it came, and OVF as it stood before (R569). -/
structure GwLost where
  came : Nat
  word : Word
  ovf  : Bool
  deriving DecidableEq, Repr

/-- The debug unit's state; plain registers stand in the register file. -/
structure DbgState where
  /-- The challenge that stands, its path, and when it lapses (R554). -/
  chal     : Option (BitVec 128 × DbgPath × Nat)
  /-- What DBG_CHAL shows. -/
  shown    : BitVec 128
  session  : Option (BitVec 2 × DbgPath)
  fails    : Nat
  lockEnd  : Option Nat
  code     : BitVec 4
  cause    : BitVec 3
  /-- The next instruction does not trigger an instruction breakpoint (R562). -/
  skipIbp  : Bool
  /-- Halted on a BRK (R563). -/
  onBrk    : Bool
  resp     : BitVec 4
  hlmCode  : BitVec 4
  gwTx     : Word
  gwTxFull : Bool
  gwRx     : Word
  gwRxFull : Bool
  /-- The last word that either register discarded, while an emptying of the same NCLK may still come (R569). -/
  gwTxLost : Option GwLost
  gwRxLost : Option GwLost
  /-- High halves captured for the debug path (R566), keyed by BAR0 offset. -/
  quiet    : List (Nat × Word)
  /-- The TAP: instruction register, boundary-scan register, bypass bit, and what Capture-DR shows. -/
  tapIr    : BitVec 5
  bscan    : BitVec 256
  bypass   : Bool
  capData  : Word
  capStat  : BitVec 2
  deriving DecidableEq, Repr

/-! ## What leaves the module -/

/-- What the module sends or drives, in order. -/
inductive Out where
  /-- Bytes written to host memory, with a PASID or none (R274); flags: poisoned data (R270), and the attributes
  Relaxed Ordering and No Snoop (R266). -/
  | hostWrite (pasid : Option (BitVec 20)) (addr : Nat) (bytes : List Byte) (poisoned relax noSnoop : Bool)
  /-- A read request to host memory, with a PASID or none (R274); its attributes follow (R266). -/
  | hostRead (pasid : Option (BitVec 20)) (addr len : Nat) (relax noSnoop : Bool)
  | msix (addr : BitVec 64) (data : Word)
  /-- A flit leaves a Ferry port, sent or sent again, with the message that its payload carries (R429–R431). -/
  | flit (port : BitVec 2) (bits : BitVec 2048) (msg : LinkMsg)
  /-- The flit that answers a received one: it acknowledges, carries NAK, and returns credits (R429–R431). -/
  | flitAnswer (port : BitVec 2) (bits : BitVec 2048)
  /-- The payload of a flit taken in order goes to the units of its class; each message that it carries is a command
  of its own (R429, R431). -/
  | flitTaken (port : BitVec 2) (cls : BitVec 2) (payload : BitVec 1920)
  /-- The input buffers of a sailing go back to their producers (R14). -/
  | inputsReleased (sail : Sail)
  | popped (block : Nat) (word : BitVec 72)
  deriving DecidableEq, Repr

/-! ## The module -/

/-- The whole state of the module. -/
structure State where
  mode    : Mode
  /-- The HX1 is powered and out of reset. -/
  hx1     : Bool
  /-- Time since power, in ns (one PCLK). -/
  now     : Nat
  /-- Number of free values taken: the model's own field. -/
  free    : Nat
  /-- What the last command that reads something returned: the model's own field. -/
  reply   : List Nat
  out     : List Out
  pending : List Instr
  /-- Plain register fields by BAR0 offset; unlisted registers hold 0. -/
  regs    : List (Nat × Word)
  arr     : ArrayState
  helm    : HelmState
  ldr     : LdrState
  ttb     : TtbState
  flt     : FltState
  que     : QueState
  mem     : MemState
  plt     : PilotState
  fry     : FryState
  fab     : FabState
  wdn     : WdnState
  dbg     : DbgState
  deriving DecidableEq, Repr

/-! ## Reset: the state at the start of LOAD -/

/-- Latches and planes at LOAD (R61). -/
def ArrayState.load : ArrayState :=
  { c := 0, d := 0, x := 0, m := BitVec.allOnes peCount, q := 0, planes := [], damage := [] }

/-- The Helm at LOAD (R101, R118, R594). -/
def HelmState.load : HelmState :=
  { store := [], parityBad := [], desc := [], nq := [], uq := [], run := none, preempted := none, red := [],
    probes := [], commits := [], seqs := 0, halow := none, waited := false, fpq := [], notifyQ := [],
    told := [], landing := false, stopReq := false, holdReq := false, held := false, dbgReq := false,
    dbgHalt := false, dbgStep := false, gap := 0, gapLate := false, gapBase := 0, gapAt := 0, paused := false,
    pauseEnd := 0, steal := false, noSlot := NoSlot.zero }

/-- The Loader at LOAD (R237). -/
def LdrState.load : LdrState :=
  { queue := [], run := none, bytes := 0, ckBase := 0, ckPlanes := [], ckpt := none, restore := none }

/-- A timetable without entries, which no tick before RUN uses. -/
def Timetable.none : Timetable :=
  { period := 0, policy := 0, cover := 0, worst := 0, pmask := 0, entries := [] }

/-- The Timetable unit at LOAD (R244, R265). -/
def TtbState.load : TtbState :=
  { sail := 0, passSail := 0, active := 0, slots := [], staged := none, cur := Timetable.none, pend := none,
    phase := .notick, flags := 0, passFlags := 0, srcUsed := 0, srcLost := false, src := 0x000A3201, srcNext := none,
    lastTick := 0, ticked := false, tickDue := [], base := 0, pass := 0, tickAt := 0, est := [],
    marked := false, sentFor := Option.none, openAt := 0, ckDone := false, ckWait := false, cut := false, outq := [],
      ntf := [], tload := none,
    syncOut := false, syncEnd := none }

/-- Defaults of FLT_SRC0–FLT_SRC19 (R501). -/
def fltSrcReset : List (Nat × Word) :=
  [
    (0x0, 0x8F800400), (0x1, 0xE9000100), (0x2, 0xC9000001), (0x3, 0x87800040), (0x4, 0xC0800001),
    (0x5, 0x87800040), (0x6, 0xC0800001), (0x7, 0x84000010), (0x8, 0x87800010), (0x9, 0xD1800001),
    (0xA, 0xC1000040), (0xB, 0x87800001), (0xC, 0xC0800001), (0xD, 0xC0800001), (0xE, 0xC2000040),
    (0xF, 0xC0800001), (0x13, 0x87800400)]

/-- The fault manager at LOAD (R527). -/
def FltState.load : FltState :=
  { hist := [], log := [], reports := [], repair := none, src := fltSrcReset,
    swd := 0x0A1003E8, swdNext := 0x0A1003E8, bistStep := 0, spareBad := [], bistEnd := 0, recordDue := false }

/-- No link, and the PCIe reset values of the host's settings: Relaxed Ordering and No Snoop enabled, payloads of
128 bytes, read requests of 512 bytes; BAR4 has its 16 GiB. PRESUMED (log 174): the PCIe specification's reset values. -/
def LinkConfig.reset : LinkConfig :=
  { rate := 0, width := 0, flit := false, relax := true, noSnoop := true, mps := 0, mrrs := 2, bar4 := 0 }

/-- The queue engine at LOAD (09, R295). -/
def QueState.load : QueState :=
  { pairs := [], mail := [], events := [], msix := [], funcMask := false, linkUp := false,
    pasidEn := false, d3 := false, perst := false, rr := [], link := LinkConfig.reset, aerInternal := false,
    aerAbort := false, aerUnsupported := false, aerPoisoned := false, aerTimeout := false, masterAbort := false,
    targetAbort := false, kept := [], posBase := 0 }

/-- Module memory and network at LOAD (R396, R401, R412). -/
def MemState.load : MemState :=
  { bytes := [], damage := [], wb := [], dirty := [], routes := [], stats := [] }

/-- The Pilots at LOAD (R307, R308). -/
def PilotState.load : PilotState :=
  { gpr := Vector.replicate 32 0, pc := 0, cy := false, ie := false, pl := 2, rsp := 0x00800000,
    rslo := 0x007C0000, rshi := 0x00800000, fcsr := 0, vbase := 0, cyc := 0, cycHi := 0, solo := false,
    survivor := false, save1 := SaveSet.none, save2 := SaveSet.none, save3 := SaveSet.none, resv := none,
    flights := [], fq := [], started := false, idle := false, halted := false,
    frozen := false, alarms := [], recReq := false, ldrReq := false, wdogEn := false, wdogStage := false,
    wdogCnt := 10000, wdogAt := 0 }

/-- The Ferry block at LOAD; the node ID comes from the straps (R432). -/
def FryState.load (node : BitVec 4) : FryState :=
  { ports := Vector.replicate 4 PortState.idle, node := node.zeroExtend 16, discovered := false, announced := false,
    known := [], children := [],
    dups := [],
    selfDup := false, tree := 0x7D0, upPort := none, upDepth := 0, rootConf := false, deep := false,
    tickLate := false, mepoch := 0, armed := false, sailofs := 0, out := false, due := none,
    tickSent := false, rejoin := none, reports := [], collect := none, maxMembers := 0, verdict := none, past := [],
    awaiting := none, slots := [], fresh := [], early := [], waits := [], posts := [], late := [], reds := 0,
    contrib := [], links := [], linkSeq := 0, rxStatus := [], treeNext := 0x7D0 }

/-- The fabric at LOAD (R496). -/
def FabState.load : FabState :=
  { regions := [], engine := none, rclk := [], qcfg := [], qthr := [], blocks := [], ram := [],
    cams := Vector.replicate 4 { conf := 0x0C0000E4, phase := .off, deskewed := false },
    switching := [], sail := 0, asleep := true, answer := none }

/-- The Warden with its own store as after OFF, at the instant at which the rails are good and the HX1 is
released: HX1_RESET_RELEASE is due. -/
def WdnState.load : WdnState :=
  { pinVin := 0, vin := 0, vinMin := 0, tempJ := 0, tempW := 0, power := 0, holdup := none, sagging := none, ign := false,
    ignDue := 0,
    ignBlocked := false, ignOff := none, waking := none, rails := true, resetting := false,
    thermal := none, wardenHot := false, dueAt := 0, rewake := false, cause := 0, wake := 0, image := 0, tries := 0,
    bootCode := 0, cal := 0,
    straps := { node := 0, bootSel := false }, smbNode := 0, booting := false,
    verified := false, others := [], limits := 0, bootlim := none, slot0 := 0, selfTested := false,
    pilotBad := [], degradedFor := false, orders := [], benchFirst := false, aclkReq := 16,
    aclkPend := none, cap := 16, coolTicks := 0, aclkEff := 16, healthy := false, pulse := false,
    held := false, expired := false, noHealth := false, clkMiss := 0, clkNext := none, unmarked := 0,
    markerSince := false,
    swdAt := none, swdFirst := false, tags := [], tagDirty := false, tagBusy := none, tagWaits := [],
    tagSmb := none, tagA := none, tagB := none, tagNextB := false, tagPtr := 0,
    alertMask := 0, alert := 0,
    recordA := some (0, List.replicate 16 0x3E1F), recordB := none, control := none, iver := 0, calib := [],
    flash := [], programmed := [], flashOp := none, flashCode := 0 }

/-- The debug unit at LOAD, with no lockout (R570). -/
def DbgState.load : DbgState :=
  { chal := none, shown := 0, session := none, fails := 0, lockEnd := none, code := 0,
    cause := 0, skipIbp := false, onBrk := false, resp := 0,
    hlmCode := 0, gwTx := 0, gwTxFull := false, gwRx := 0, gwRxFull := false, gwTxLost := none, gwRxLost := none,
    quiet := [], tapIr := 2,
    bscan := 0, bypass := false, capData := 0, capStat := 0 }

/-- Reset values of the plain registers below the Ferry block that are not 0. -/
def regsResetLow : List (Nat × Word) :=
  [
    (0x100018, 0x4), (0x10001C, 0x2000), (0x100400, 0x3E1F), (0x100404, 0x3E1F), (0x100408, 0x3E1F),
    (0x10040C, 0x3E1F), (0x100410, 0x3E1F), (0x100414, 0x3E1F), (0x100418, 0x3E1F), (0x10041C, 0x3E1F),
    (0x100420, 0x3E1F), (0x100424, 0x3E1F), (0x100428, 0x3E1F), (0x10042C, 0x3E1F), (0x100430, 0x3E1F),
    (0x100434, 0x3E1F), (0x100438, 0x3E1F), (0x10043C, 0x3E1F), (0x300004, 0xA3201), (0x400000, 0x2),
    (0x500010, 0xA0000000), (0x500014, 0xA0000001), (0x500018, 0xA0000002), (0x50001C, 0xA0000003), (0x500038, 0x95555),
    (0x500044, 0x2710), (0x508088, 0x2), (0x700000, 0x14), (0x700040, 0x38621A42)]

/-- The same from the Ferry block on. -/
def regsResetHigh : List (Nat × Word) :=
  [
    (0x800008, 0x7D0), (0x800018, 0x5), (0x800034, 0x640A04), (0x800040, 0x1FF), (0x800100, 0x80000000),
    (0x800120, 0x80000000), (0x800140, 0x80000000), (0x800160, 0x80000000), (0x900000, 0x1), (0x90000C, 0xFFFF),
    (0x900150, 0xC0000E4), (0x900154, 0xC0000E4), (0x900158, 0xC0000E4), (0x90015C, 0xC0000E4), (0xA00008, 0x1),
    (0xA0000C, 0x2560), (0xA00010, 0x8F800400), (0xA00014, 0xE9000100), (0xA00018, 0xC9000001), (0xA0001C, 0x87800040),
    (0xA00020, 0xC0800001), (0xA00024, 0x87800040), (0xA00028, 0xC0800001), (0xA0002C, 0x84000010),
      (0xA00030, 0x87800010),
    (0xA00034, 0xD1800001), (0xA00038, 0xC1000040), (0xA0003C, 0x87800001), (0xA00040, 0xC0800001),
      (0xA00044, 0xC0800001),
    (0xA00048, 0xC2000040), (0xA0004C, 0xC0800001), (0xA0005C, 0x87800400), (0xA000A0, 0xA1003E8), (0xB00010, 0x10),
    (0xB00040, 0x20207), (0xC00010, 0x8000000C)]

/-- Reset values of the plain registers: those not listed reset to 0. -/
def regsReset : List (Nat × Word) := regsResetLow ++ regsResetHigh

/-- The module right after reset: HX1 has just left reset and LOAD begins. -/
def State.reset : State :=
  { mode := .load, hx1 := true, now := 0, free := 0, reply := [], out := [], pending := [],
    regs := regsReset, arr := ArrayState.load, helm := HelmState.load, ldr := LdrState.load,
    ttb := TtbState.load, flt := FltState.load, que := QueState.load, mem := MemState.load,
    plt := PilotState.load, fry := FryState.load 0, fab := FabState.load, wdn := WdnState.load,
    dbg := DbgState.load }

end Sys2Proof.Machine
end

