-- ==== Sys2Proof/Machine/Store.lean ====
section
/-!
DEFINITION. Sparse stores: a list of (key, value) pairs with keys strictly rising and no value equal to the
default that an unlisted key reads as; bit fields of words; saturating counts; bytes and words of numbers.
-/
namespace Sys2Proof.Machine

/-- The value at key `k`; `dflt` where nothing is listed. -/
def storeGet {β : Type} (dflt : β) : List (Nat × β) → Nat → β
  | [], _ => dflt
  | (a, b) :: t, k => if a = k then b else storeGet dflt t k

/-- The list without key `k`. -/
def storeDrop {β : Type} (l : List (Nat × β)) (k : Nat) : List (Nat × β) :=
  match l with
  | [] => []
  | (a, b) :: t => if a = k then storeDrop t k else (a, b) :: storeDrop t k

/-- The list with (k, v) before the first key above `k`. -/
def storeInsert {β : Type} (l : List (Nat × β)) (k : Nat) (v : β) : List (Nat × β) :=
  match l with
  | [] => [(k, v)]
  | (a, b) :: t => if k < a then (k, v) :: (a, b) :: t else (a, b) :: storeInsert t k v

/-- The list with key `k` set to `v`; setting the default removes the entry. -/
def storePut {β : Type} [DecidableEq β] (dflt : β) (l : List (Nat × β)) (k : Nat) (v : β) : List (Nat × β) :=
  if v = dflt then storeDrop l k else storeInsert (storeDrop l k) k v

/-- Every key of the list lies above `k`. -/
def storeAbove {β : Type} (k : Nat) (l : List (Nat × β)) : Bool :=
  match l with
  | [] => true
  | (a, _) :: _ => decide (k < a)

/-- The canonical form: keys strictly rising, no default listed. -/
def storeWf {β : Type} [DecidableEq β] (dflt : β) : List (Nat × β) → Bool
  | [] => true
  | (a, b) :: t => decide (b ≠ dflt) && storeAbove a t && storeWf dflt t

/-- Bits [hi:lo] of a word, as a number. -/
def bits (w : Word) (hi lo : Nat) : Nat := (w.toNat >>> lo) % 2 ^ (hi + 1 - lo)

/-- Bit i of a word. -/
def bit (w : Word) (i : Nat) : Bool := w.getLsbD i

/-- Word with bits [hi:lo] replaced by the low bits of `v`. -/
def setBits (w : Word) (hi lo v : Nat) : Word :=
  let mask := BitVec.ofNat 32 ((2 ^ (hi + 1 - lo) - 1) <<< lo)
  (w &&& ~~~mask) ||| (BitVec.ofNat 32 (v <<< lo) &&& mask)

/-- Word with bit i set to b. -/
def setBit (w : Word) (i : Nat) (b : Bool) : Word := setBits w i i (if b then 1 else 0)

/-- A field value placed at bit `lo`. -/
def fld (v lo : Nat) : Word := BitVec.ofNat 32 (v <<< lo)

/-- A flag placed at bit `i`. -/
def flg (b : Bool) (i : Nat) : Word := if b then fld 1 i else 0

/-- A count that stops at `top`. -/
def satAdd (a b top : Nat) : Nat := min (a + b) top

/-- Byte i of a number, little-endian. -/
def byteOf (v i : Nat) : Byte := BitVec.ofNat 8 (v >>> (8 * i))

/-- The low `n` bytes of a number, little-endian. -/
def bytesOf (v : Nat) : Nat → List Byte
  | 0 => []
  | n + 1 => BitVec.ofNat 8 v :: bytesOf (v / 256) n

/-- The number whose little-endian bytes are given. -/
def numOf : List Byte → Nat
  | [] => 0
  | b :: t => b.toNat + 256 * numOf t

/-- n consecutive numbers from `a`. -/
def rangeFrom (a : Nat) : Nat → List Nat
  | 0 => []
  | n + 1 => a :: rangeFrom (a + 1) n

/-- Sailing numbers: `a` lies in the past of `c` or is `c` (R252). -/
def inPast (t c : Sail) : Bool :=
  let d := (t - c).toNat
  decide (d = 0) || decide (2 ^ 47 ≤ d)

/-- Block32 bytes [lo, lo+n) as a number. -/
def blkField (b : Block32) (lo n : Nat) : Nat := (b.toNat >>> (8 * lo)) % 2 ^ (8 * n)

/-- Replace element i of a list. -/
def listSet {α : Type} (l : List α) (i : Nat) (v : α) : List α := l.set i v

end Sys2Proof.Machine
end

