-- ==== Sys2Proof/Machine/Hash.lean ====
section
/-!
DEFINITION. Checksums and hashes that the manual names: CRC-32C (10, BCRC), SHA-256 and HMAC-SHA-256 (16, 17).
SHA-256 and HMAC are those of FIPS 180-4 and FIPS 198-1, which the manual names but does not repeat.
-/
namespace Sys2Proof.Machine

/-- One bit of the reflected CRC-32C. -/
def crcBit (c : Word) : Word := if c.getLsbD 0 then (c >>> 1) ^^^ 0x82F63B78 else c >>> 1

/-- One byte of the reflected CRC-32C. -/
def crcByte (c : Word) (b : Byte) : Word :=
  crcBit (crcBit (crcBit (crcBit (crcBit (crcBit (crcBit (crcBit (c ^^^ b.zeroExtend 32))))))))

/-- The CRC of a list of bytes, from a running value. -/
def crcRun (c : Word) (l : List Byte) : Word := l.foldl crcByte c

/-- The standard CRC-32C: initial value of ones and final inversion. -/
def crc32c (l : List Byte) : Word := ~~~ crcRun 0xFFFFFFFF l

/-! ## SHA-256

Its constants are derived, as FIPS 180-4 says: the first 32 bits after the binary point of the cube roots of the first
64 primes, and of the square roots of the first 8. -/

/-- The greatest x below 2 ^ n, with the bits above n as in `x`, whose power k does not exceed m. -/
def rootBelow (k m : Nat) : Nat → Nat → Nat
  | 0, x => x
  | n + 1, x => rootBelow k m n (if (x + 2 ^ n) ^ k ≤ m then x + 2 ^ n else x)

/-- The first 32 bits after the point of the root k of p. -/
def rootFraction (k p : Nat) : Word := BitVec.ofNat 32 (rootBelow k (p * 2 ^ (32 * k)) 36 0)

/-- No number from 2 to n - 1 divides n. -/
def isPrimeNumber (n : Nat) : Bool := decide (2 ≤ n) && (List.range n).all fun d => decide (d < 2) || decide (n % d ≠ 0)

/-- The first 64 primes, which end with 311. -/
def hashPrimes : List Nat := (List.range 312).filter isPrimeNumber

/-- The additive constants of the 64 steps. -/
def hashConstants : List Word := hashPrimes.map (rootFraction 3)

/-- The chaining value before the first block. -/
def hashStart : List Word := (hashPrimes.take 8).map (rootFraction 2)

/-- Two rotations of a word and a third term, combined. -/
def turned (x : Word) (i j : Nat) (y : Word) : Word := y ^^^ (x.rotateRight i ^^^ x.rotateRight j)

/-- The word that follows sixteen words of the message schedule, oldest first. -/
def scheduleNext (w : List Word) : Word :=
  let old (i : Nat) : Word := w.getD i 0
  old 0 + turned (old 1) 7 18 (old 1 >>> 3) + (old 9 + turned (old 14) 17 19 (old 14 >>> 10))

/-- One step on the eight working words, given the sum of its constant and its schedule word. -/
def hashStep (v : List Word) (x : Word) : List Word :=
  match v with
  | [a, b, c, d, e, f, g, h] =>
    let up := x + h + turned e 6 11 (e.rotateRight 25) + (g ^^^ (e &&& (f ^^^ g)))
    [up + turned a 2 13 (a.rotateRight 22) + ((a &&& b) ||| (c &&& (a ||| b))), a, b, c, up + d, e, f, g]
  | _ => v

/-- The steps of a block: the schedule slides over the message as the constants are used up. -/
def hashSteps : List Word → List Word → List Word → List Word
  | [], _, v => v
  | k :: ks, w, v => hashSteps ks (w.tail ++ [scheduleNext w]) (hashStep v (k + w.headD 0))

/-- A word of four bytes, most significant first. -/
def beWord (l : List Byte) : Word := BitVec.ofNat 32 (numOf l.reverse)

/-- The bytes of a word, most significant first. -/
def beBytes (w : Word) : List Byte := (bytesOf w.toNat 4).reverse

/-- The chaining value after one block of 64 bytes. -/
def hashBlock (h : List Word) (blk : List Byte) : List Word :=
  let v := hashSteps hashConstants ((List.range 16).map fun i => beWord ((blk.drop (4 * i)).take 4)) h
  (List.range 8).map fun i => h.getD i 0 + v.getD i 0

/-- The chaining value after n blocks. -/
def hashBlocks : Nat → List Word → List Byte → List Word
  | 0, h, _ => h
  | n + 1, h, l => hashBlocks n (hashBlock h (l.take 64)) (l.drop 64)

/-- A message padded to whole blocks: a bit 1, zeros, and the length in bits, eight bytes most significant first. -/
def hashPadded (l : List Byte) : List Byte :=
  l ++ 0x80 :: List.replicate ((119 - l.length % 64) % 64) 0 ++ (bytesOf (8 * l.length) 8).reverse

/-- SHA-256 of a list of bytes: 32 bytes. -/
def sha256 (l : List Byte) : List Byte :=
  (hashBlocks ((hashPadded l).length / 64) hashStart (hashPadded l)).flatMap beBytes

/-- HMAC-SHA-256 with a key of at most 64 bytes. -/
def hmacSha256 (key msg : List Byte) : List Byte :=
  let k := key ++ List.replicate (64 - key.length) 0
  sha256 (k.map (· ^^^ 0x5C) ++ sha256 (k.map (· ^^^ 0x36) ++ msg))

end Sys2Proof.Machine
end

