-- ==== Sys2Proof/Config.lean ====
section
/-!
DEFINITION. What one module's fuses, factory calibration and implementation fix, and the free values: the
values the manual leaves open. Each is an opaque constant with no body, so nothing can be proved of its value.
-/
namespace Sys2Proof.Config

/-- The n-th value that the manual leaves open. State.free counts the values taken. -/
opaque freeValue : Nat → Nat

/-- GLB_SERIAL0, GLB_SERIAL1 and bits [15:0] of GLB_SERIAL2: the ten ASCII characters of the serial number,
from the factory calibration (R23). -/
opaque serial : Nat → Word

/-- The fused 32-byte debug key (R553). -/
opaque debugKey : Nat

/-- The fused hash of the boot key (R540). -/
opaque keyHash : Nat

/-- Whether the factory OTP's CRC holds (R542). -/
opaque otpGood : Bool

/-- What the two copies of the control block, 64 KiB as one number, say: ACTIVE and TRIAL, none where no copy
is valid. Their layout is not given (16, Boot flash). -/
opaque controlBlock : Nat → Option (BitVec 1 × Bool)

/-- Where the 16-byte header of the user calibration holds its fields, which is not given (R542): first byte of MAGIC, of
NENT and of the CRC, for 0, 1 and 2, and the length of NENT for 3. -/
opaque calPlace : Nat → Nat

/-- The factory value in the OTP of an ITEM and INDEX (R542). -/
opaque factory : Nat → Nat → Int

/-- The cell of the boundary-scan register that belongs to a pin, which is not given: pins are numbered as `scanLevels`
has them (R551). -/
opaque scanCell : Nat → Fin 256

/-- The fused column repair words of the banks: bank and sub-array to BNK_RDATA (12, BNK_RDATA). -/
opaque bankRepair : Nat → Nat → Word

/-- Whether the pad settings of a region's frames 0 to 383, as one number, put LVDS or a single-ended rate above
200 Mbit/s on a pin of I/O bank b (R488 code 6). The places of the pad settings are not given. -/
opaque padLvds : Nat → Nat → Bool

/-- A signal of the fabric (14): a constant; a pin, a RAM block, a queue controller or a hard primitive of a region;
a bit of SAIL, or TICK (R468); and of a region, by column and row, the flip-flop or the look-up table of a cell, the
carry out of a column's top cell, or a 16:1 or (`wide`) 64:1 multiplexer that begins at a row (R467). -/
inductive Net where
  | constant (v : Bool)
  | outside (region i : Nat)
  | sail (bit : Nat)
  | tick
  | stored (region col row : Nat)
  | table (region col row : Nat)
  | carry (region col : Nat)
  | mux (region col row : Nat) (wide : Bool)
  deriving DecidableEq, Repr, Inhabited

/-- What configuration makes of a cell: its look-up table with the nets of its inputs, and its flip-flop: the data, which
is the cell's own table where no net is named, clock enable, set/reset with its kind, the tree that clocks it, whether a
routed net does in FREE mode, and the initial value (14, Regions and cells). -/
structure Cell where
  lut       : BitVec 16
  inputs    : List Net
  dataNet   : Option Net
  enable    : Option Net
  setReset  : Option Net
  async     : Bool
  isSet     : Bool
  tree      : BitVec 2
  freeClock : Bool
  init      : Bool
  deriving DecidableEq, Repr, Inhabited

/-- The data input of the flip-flop of the cell at a row of a column of a region. -/
def Cell.data (c : Cell) (region col row : Nat) : Net := c.dataNet.getD (.table region col row)

/-- What frames 0 to 383 of a region, as one number, make of cell i. The layout of a frame's payload is not given. -/
opaque cellOf : Nat → Nat → Cell

/-- The carry out of a cell, from its configuration, its inputs and the carry in; its function is not given. -/
opaque carryOut : Cell → List Bool → Bool → Bool

/-- The output of a 16:1 or (`wide`) 64:1 multiplexer from its cells' inputs, low row first; which of them select is not
given. -/
opaque muxOut : Bool → List Bool → Bool

/-- What the pins, blocks and hard primitives of a region bring user logic: instant, region, number. -/
opaque fabricInput : Nat → Nat → Nat → Bool

/-- A signal that feeds itself with no flip-flop between: instant, region. -/
opaque openNet : Nat → Nat → Bool

/-- The tree on which a region's configuration, as one number, instantiates SAIL, and how many of its cycles, of 0 to 2,
a tick takes beyond the next: instant (R468). -/
opaque sailTree : Nat → BitVec 2
opaque sailDelay : Nat → Nat

/-- Phase, in ns, of tree k of a region on a reference clock. -/
opaque clockPhase : Nat → Nat → Nat

/-- Whether a clock whose edges nothing fixes gives an active edge: instant, region, clock. -/
opaque openEdge : Nat → Nat → Nat → Bool

/-- The tree that clocks a side of a RAM block or queue controller, and whether a routed net does in FREE mode: the
region's frames 0 to 383 as one number, block 0 to 15, side (port B of a RAM, the popping side of a queue). -/
opaque blockTree : Nat → Nat → Bool → BitVec 2
opaque blockFree : Nat → Nat → Bool → Bool

/-- Whether a clock whose edges nothing fixes gives a falling edge: instant, region, tree. -/
opaque openFall : Nat → Nat → Nat → Bool

/-- Whether a frame holds initial contents of a RAM block of its region: block 0 to 15, frame index. -/
opaque ramFrame : Nat → Nat → Bool

/-- The contents of a RAM block of a region in its frames 384 to 455, as one number. -/
opaque ramInit : Nat → Nat → Nat

/-- What a RAM block holds after user logic's accesses of one nanosecond: instant, block, contents before. -/
opaque ramStep : Nat → Nat → Nat → Nat

/-- What decides the SRC code that GLB_ERR records for a write by user logic (R24, R469). -/
opaque fabricWriterCode : Nat

end Sys2Proof.Config
end

