-- ==== Sys2Proof/Machine/RegMap.lean ====
section
/-!
DEFINITION. The register map of BAR0: offsets by name, the fields that writes and reads change with their
access types and reserved encodings (R3, R4), and who may write a register (R25, R122, R123, R209, R236,
R264, R304, R385, R422, R464, R494, R524, R547). A register or field that is not listed here is read only.
-/
namespace Sys2Proof.Machine

/-- How a field is written and read (00, Access types). `w1cAll` clears the whole field when a 1 is written
to any bit of it. -/
inductive Acc where
  | rw
  | w1c
  | w1cAll
  | rc
  deriving DecidableEq, Repr

/-- A field that software changes: its bits, its access, and its reserved codes as closed ranges. -/
structure Field where
  hi  : Nat
  lo  : Nat
  acc : Acc
  bad : List (Nat × Nat)
  deriving DecidableEq, Repr

/-- A run of `count` registers `stride` bytes apart that share their fields. -/
structure RegSpec where
  base   : Nat
  count  : Nat
  stride : Nat
  fields : List Field
  deriving DecidableEq, Repr

/-! Offsets (BAR0). -/
namespace Reg
def glbErr : Nat := 0x000020
def hlmCmd : Nat := 0x100000
def hlmStat : Nat := 0x100004
def hlmConflict : Nat := 0x100008
def hlmKq : Nat := 0x10000C
def hlmKcur : Nat := 0x100010
def hlmShare : Nat := 0x100018
def hlmLspan : Nat := 0x10001C
def hlmUcodeVer : Nat := 0x100020
def hlmUcodeCrc : Nat := 0x100024
def hlmPatch : Nat := 0x100028
def hlmPatchVer : Nat := 0x10002C
def hlmPatchCrc : Nat := 0x100030
def hlmPatchCommit : Nat := 0x100034
def hlmPatchCstat : Nat := 0x100038
def hlmGor : Nat := 0x100040
def hlmKsub : Nat := 0x100080
def hlmKsubGo : Nat := 0x1000A0
def hlmKsubStat : Nat := 0x1000A4
def hlmRslot : Nat := 0x100100
def hlmRkid : Nat := 0x100140
def hlmFpev : Nat := 0x100200
def hlmFpevCtl : Nat := 0x100210
def hlmFpevPop : Nat := 0x100214
def hlmTmap : Nat := 0x100400
def ldrStat : Nat := 0x200000
def ldrCkptLo : Nat := 0x200010
def ldrCkptHi : Nat := 0x200014
def ldrCkptStat : Nat := 0x200018
def ldrKib : Nat := 0x200020
def ldrSteal : Nat := 0x200028
def ldrLast : Nat := 0x200030
def ldrXsub : Nat := 0x200080
def ldrXsubGo : Nat := 0x2000A0
def ldrXsubStat : Nat := 0x2000A4
def ttbStat : Nat := 0x300000
def ttbSrc : Nat := 0x300004
def ttbSrcCommit : Nat := 0x300008
def ttbSrcCstat : Nat := 0x30000C
def ttbSailLo : Nat := 0x300010
def ttbSailHi : Nat := 0x300014
def ttbSw : Nat := 0x300020
def ttbSwTgtLo : Nat := 0x300024
def ttbSwTgtHi : Nat := 0x300028
def ttbSwCommit : Nat := 0x30002C
def ttbSwCstat : Nat := 0x300030
def ttbTload : Nat := 0x300040
def ttbTloadCommit : Nat := 0x300044
def ttbTloadCstat : Nat := 0x300048
def ttbSlots : Nat := 0x30004C
def ttbRec : Nat := 0x300050
def ttbCnt : Nat := 0x300060
def ttbMaxdur : Nat := 0x300064
def ttbAck : Nat := 0x300070
def ttbNtf : Nat := 0x300080
def ttbNtfPop : Nat := 0x3000B0
def ttbNtfCtl : Nat := 0x3000B4
def ttbEstat : Nat := 0x300400
def queCtl : Nat := 0x400000
def queStat : Nat := 0x400004
def queErr : Nat := 0x400008
def queDberr : Nat := 0x40000C
def queAdmSqbLo : Nat := 0x400010
def queAdmSqbHi : Nat := 0x400014
def queAdmCqbLo : Nat := 0x400018
def queAdmCqbHi : Nat := 0x40001C
def queAdmSize : Nat := 0x400020
def queAdmVec : Nat := 0x400024
def queAdmCommit : Nat := 0x400028
def queAdmCstat : Nat := 0x40002C
def queB4base : Nat := 0x400030
def queQpsel : Nat := 0x400040
def queQpinfo : Nat := 0x400044
def queMb : Nat := 0x400100
def queMbSrc : Nat := 0x400140
def queMbRes : Nat := 0x400144
def queMbDone : Nat := 0x400148
def queMbFill : Nat := 0x40014C
def pltStat : Nat := 0x500000
def pltWin : Nat := 0x500010
def pltUb0 : Nat := 0x500020
def pltIrqPend : Nat := 0x500030
def pltIrqEn : Nat := 0x500034
def pltIrqLvl : Nat := 0x500038
def pltWdogCtl : Nat := 0x500040
def pltWdogReload : Nat := 0x500044
def pltWdogKick : Nat := 0x500048
def pltWdogCnt : Nat := 0x50004C
def dbgChal : Nat := 0x508000
def dbgResp : Nat := 0x508010
def dbgAuth : Nat := 0x508030
def dbgAuthStat : Nat := 0x508034
def dbgCtl : Nat := 0x508040
def dbgStat : Nat := 0x508044
def dbgIbp : Nat := 0x508050
def dbgDbpa : Nat := 0x508060
def dbgDbpc : Nat := 0x508068
def dbgRegsel : Nat := 0x508070
def dbgRegdata : Nat := 0x508074
def dbgMaddrLo : Nat := 0x508080
def dbgMaddrHi : Nat := 0x508084
def dbgMctl : Nat := 0x508088
def dbgMdata : Nat := 0x50808C
def dbgHlm : Nat := 0x508090
def dbgHlmstat : Nat := 0x508094
def gwTx : Nat := 0x5080C0
def gwRx : Nat := 0x5080C4
def gwStat : Nat := 0x5080C8
def bnkStat : Nat := 0x600000
def bnkEcc : Nat := 0x600010
def bnkUeaddr : Nat := 0x600020
def bnkColl : Nat := 0x600030
def bnkRsum : Nat := 0x600040
def bnkRsel : Nat := 0x600050
def bnkRdata : Nat := 0x600054
def nocTmo : Nat := 0x700000
def nocTmocnt : Nat := 0x700004
def nocRtsel : Nat := 0x700010
def nocRtdata : Nat := 0x700014
def nocRtcur : Nat := 0x700018
def nocRtCommit : Nat := 0x70001C
def nocRtCstat : Nat := 0x700020
def nocIsoLo : Nat := 0x700030
def nocIsocmd : Nat := 0x700038
def nocPrio0 : Nat := 0x700040
def nocStsel : Nat := 0x700050
def nocStreq : Nat := 0x700054
def nocStbyteLo : Nat := 0x700058
def nocStbyteHi : Nat := 0x70005C
def nocHist : Nat := 0x700060
def nocStclr : Nat := 0x700080
def nocEvt : Nat := 0x700090
def fryStat : Nat := 0x800000
def fryNode : Nat := 0x800004
def fryTree : Nat := 0x800008
def fryTreeCommit : Nat := 0x80000C
def fryTreeCstat : Nat := 0x800010
def fryInst : Nat := 0x800014
def fryEpoch : Nat := 0x800018
def fryEprec : Nat := 0x80001C
def fryMepoch : Nat := 0x800020
def fryMbumpLo : Nat := 0x800024
def fryMbumpHi : Nat := 0x800028
def frySailofsLo : Nat := 0x80002C
def frySailofsHi : Nat := 0x800030
def fryTmo : Nat := 0x800034
def fryHalocnt : Nat := 0x800038
def fryEvt : Nat := 0x80003C
def fryEvtEn : Nat := 0x800040
def fryPctl : Nat := 0x800100
def fryPstat : Nat := 0x800104
def fryPlat : Nat := 0x800108
def fryPcw : Nat := 0x80010C
def fryPuc : Nat := 0x800110
def fryPretry : Nat := 0x800114
def fabCtl : Nat := 0x900000
def fabStat : Nat := 0x900004
def fabEvt : Nat := 0x900008
def fabEvtEn : Nat := 0x90000C
def fabCfgSrcLo : Nat := 0x900010
def fabCfgSrcHi : Nat := 0x900014
def fabCfgCtl : Nat := 0x900018
def fabCfgCommit : Nat := 0x90001C
def fabCfgCstat : Nat := 0x900020
def fabRstat : Nat := 0x900040
def fabRcrc : Nat := 0x900060
def fabRexp : Nat := 0x900080
def fabRcmd : Nat := 0x9000A0
def fabRcmdCstat : Nat := 0x9000A4
def fabRclk : Nat := 0x900100
def fabRclkCommit : Nat := 0x900120
def fabRclkCstat : Nat := 0x900124
def fabIobank : Nat := 0x900140
def fabCam : Nat := 0x900150
def fabCamCommit : Nat := 0x900160
def fabCamCstat : Nat := 0x900164
def fabCamstat : Nat := 0x900170
def fabQcfg : Nat := 0x901000
def fabQthr : Nat := 0x901004
def fabQstat : Nat := 0x901008
def fabQhead : Nat := 0x90100C
def fabQpop : Nat := 0x901010
def fabQpush : Nat := 0x901014
def fabQpair : Nat := 0x901018
def fabQcommit : Nat := 0x902000
def fabQcstat : Nat := 0x902004
def fltStat : Nat := 0xA00000
def fltLost : Nat := 0xA00004
def fltCtl : Nat := 0xA00008
def fltIsomask : Nat := 0xA0000C
def fltSrc : Nat := 0xA00010
def fltSrcCommit : Nat := 0xA00070
def fltSrcCstat : Nat := 0xA00074
def fltCntsel : Nat := 0xA00080
def fltCnt : Nat := 0xA00084
def fltBist : Nat := 0xA00090
def fltRepair : Nat := 0xA00094
def fltSwd : Nat := 0xA000A0
def fltSwdCommit : Nat := 0xA000A4
def fltSwdCstat : Nat := 0xA000A8
def fltTkvbase : Nat := 0xA000B0
def fltWdn : Nat := 0xA000B4
def fltLog : Nat := 0xA00100
def fltLogPop : Nat := 0xA00110
def fltLogCtl : Nat := 0xA00114
def pwrStat : Nat := 0xB00000
def pwrCmd : Nat := 0xB00004
def pwrCmdCstat : Nat := 0xB00008
def pwrAclk : Nat := 0xB00010
def pwrAclkTgtLo : Nat := 0xB00014
def pwrAclkTgtHi : Nat := 0xB00018
def pwrAclkCommit : Nat := 0xB0001C
def pwrAclkcur : Nat := 0xB00020
def pwrVin : Nat := 0xB00030
def pwrTemp : Nat := 0xB00034
def pwrPower : Nat := 0xB00038
def pwrWakecfg : Nat := 0xB00040
def wdnStat : Nat := 0xB00800
def wdnBoot : Nat := 0xB00804
def wdnCal : Nat := 0xB00808
def wdnTagstat : Nat := 0xB0080C
def wdnFlAddr : Nat := 0xB00810
def wdnFlCmd : Nat := 0xB00814
def wdnFlStat : Nat := 0xB00818
def wdnTag : Nat := 0xB00C00
def wdnFlBuf : Nat := 0xB01000
def drcStat : Nat := 0xC00000
def drcEcc : Nat := 0xC00004
def drcUeaddrLo : Nat := 0xC00008
def drcUeaddrHi : Nat := 0xC0000C
def drcScrub : Nat := 0xC00010
def drcScrubPos : Nat := 0xC00014
def drcTemp : Nat := 0xC00018
end Reg

/-- A read-write field with no reserved code. -/
def rw (hi lo : Nat) : Field := ⟨hi, lo, .rw, []⟩
/-- A read-write field with reserved codes. -/
def rwBad (hi lo : Nat) (bad : List (Nat × Nat)) : Field := ⟨hi, lo, .rw, bad⟩
/-- Bits each cleared by writing 1 to it. -/
def w1c (hi lo : Nat) : Field := ⟨hi, lo, .w1c, []⟩
/-- A count cleared by writing 1 to any of its bits. -/
def w1cAll (hi lo : Nat) : Field := ⟨hi, lo, .w1cAll, []⟩
/-- A field that a read clears. -/
def rc (hi lo : Nat) : Field := ⟨hi, lo, .rc, []⟩

/-- One register. -/
def one (base : Nat) (fields : List Field) : RegSpec := ⟨base, 1, 4, fields⟩
/-- A run of registers. -/
def many (base count stride : Nat) (fields : List Field) : RegSpec := ⟨base, count, stride, fields⟩

/-- GLB and HLM registers (01, 03, 06). -/
def regsHelm : List RegSpec := [
  one Reg.glbErr [w1c 31 30],
  one Reg.hlmStat [w1c 11 3],
  one Reg.hlmConflict [rc 31 0],
  one Reg.hlmShare [rwBad 5 0 [(33, 63)]],
  one Reg.hlmLspan [rc 31 16, rw 15 0],
  one Reg.hlmPatch [w1c 2 2, rw 0 0],
  one Reg.hlmPatchVer [rw 31 0],
  one Reg.hlmPatchCrc [rw 31 0],
  many Reg.hlmKsub 8 4 [rw 31 0],
  one Reg.hlmFpevCtl [w1cAll 31 16]]

/-- LDR and TTB registers (07, 08). -/
def regsLoader : List RegSpec := [
  one Reg.ldrStat [w1c 8 2],
  one Reg.ldrCkptLo [rw 31 17],
  one Reg.ldrCkptHi [rw 4 0],
  one Reg.ldrSteal [rc 31 0],
  many Reg.ldrXsub 8 4 [rw 31 0],
  one Reg.ttbSrc [rwBad 23 17 [(101, 127)], rwBad 16 10 [(100, 127)], rw 9 4, rw 3 3, rw 2 2,
    rwBad 1 0 [(3, 3)]],
  one Reg.ttbSw [rw 4 4, rw 3 0],
  one Reg.ttbSwTgtLo [rw 31 0],
  one Reg.ttbSwTgtHi [rw 15 0],
  one Reg.ttbTload [rw 3 0],
  one Reg.ttbCnt [rc 31 24, rc 23 16, rc 15 0],
  one Reg.ttbMaxdur [rc 19 0]]

/-- QUE registers (09). -/
def regsQueue : List RegSpec := [
  one Reg.queCtl [rw 1 1, rw 0 0],
  one Reg.queErr [w1c 4 0],
  one Reg.queDberr [rc 31 0],
  one Reg.queAdmSqbLo [rw 31 0],
  one Reg.queAdmSqbHi [rw 31 0],
  one Reg.queAdmCqbLo [rw 31 0],
  one Reg.queAdmCqbHi [rw 31 0],
  one Reg.queAdmSize [rwBad 28 16 [(4097, 8191)], rwBad 12 0 [(4097, 8191)]],
  one Reg.queAdmVec [rw 15 15, rw 10 0],
  one Reg.queB4base [rw 2 0],
  one Reg.queQpsel [rw 15 0],
  one Reg.queMbRes [rw 31 0]]

/-- The fields LVLk of PLT_IRQ_LVL, k from 0 (11). -/
def lvlFields : Nat → List Field
  | 0 => []
  | k + 1 => lvlFields k ++ [rwBad (2 * k + 1) (2 * k) [(0, 0), (3, 3)]]

/-- PLT, DBG and GW registers (11, 17). -/
def regsPilot : List RegSpec := [
  many Reg.pltWin 4 4 [rw 31 31, rw 30 30, rw 29 29, rw 8 0],
  one Reg.pltUb0 [rwBad 27 16 [(2049, 4095)], rw 10 0],
  one Reg.pltIrqEn [rw 8 0],
  one Reg.pltIrqLvl (lvlFields 9),
  one Reg.pltWdogReload [rwBad 31 0 [(0, 0)]],
  many Reg.dbgResp 8 4 [rw 31 0],
  one Reg.dbgStat [w1c 7 6],
  many Reg.dbgIbp 4 4 [rw 31 2, rw 0 0],
  many Reg.dbgDbpa 2 4 [rw 31 0],
  many Reg.dbgDbpc 2 4 [rwBad 7 4 [(13, 15)], rw 2 2, rw 1 1, rw 0 0],
  one Reg.dbgRegsel [rwBad 6 0 [(65, 127)]],
  one Reg.dbgMaddrLo [rw 31 0],
  one Reg.dbgMaddrHi [rw 7 0],
  one Reg.dbgMctl [rw 4 4, rwBad 1 0 [(3, 3)]],
  one Reg.gwStat [rw 5 5, w1c 4 3]]

/-- The fields PRIOk of NOC_PRIO0 (12). -/
def prioFields : List Field :=
  [0, 3, 4, 5, 6, 8, 10, 11, 13, 14, 15].map fun k => rw (2 * k + 1) (2 * k)

/-- BNK, NOC and DRC registers (12). -/
def regsMemory : List RegSpec := [
  many Reg.bnkEcc 4 4 [rc 31 16, rc 15 0],
  many Reg.bnkUeaddr 4 4 [w1c 31 31],
  many Reg.bnkColl 4 4 [rc 31 0],
  one Reg.bnkRsel [rw 7 6, rw 5 0],
  one Reg.nocTmo [rwBad 9 0 [(0, 7), (1001, 1023)]],
  one Reg.nocTmocnt [rc 31 0],
  one Reg.nocRtsel [rwBad 13 8 [(16, 63)], rwBad 5 0 [(16, 63)]],
  one Reg.nocRtdata [rw 31 31, rw 27 24, rw 23 0],
  one Reg.nocPrio0 prioFields,
  one Reg.nocStsel [rwBad 5 0 [(16, 63)]],
  one Reg.nocEvt [w1cAll 31 16, w1c 2 0],
  one Reg.drcEcc [rc 31 16, rc 15 0],
  one Reg.drcUeaddrHi [w1c 31 31],
  one Reg.drcScrub [rw 31 31, rwBad 7 0 [(0, 0)]]]

/-- FRY registers (13). -/
def regsFerry : List RegSpec := [
  one Reg.fryTree [rw 31 31, rw 30 30, rw 29 28, rw 15 0],
  one Reg.fryEpoch [rw 31 15, rwBad 7 0 [(0, 0)]],
  one Reg.fryMbumpLo [rw 31 0],
  one Reg.fryTmo [rwBad 31 16 [(0, 0)], rwBad 15 8 [(0, 0)], rwBad 7 0 [(0, 0)]],
  one Reg.fryHalocnt [rc 31 24, rc 23 16, rc 15 8, rc 7 0],
  one Reg.fryEvt [w1c 8 0],
  one Reg.fryEvtEn [rw 8 0],
  many Reg.fryPctl 4 0x20 [rw 31 31, rwBad 7 6 [(3, 3)], rwBad 1 0 [(3, 3)]],
  many Reg.fryPcw 4 0x20 [rc 31 0],
  many Reg.fryPuc 4 0x20 [rc 31 0],
  many Reg.fryPretry 4 0x20 [rc 31 0]]

/-- The fields of the four trees of FAB_RCLKr (14). -/
def treeFields : Nat → List Field
  | 0 => []
  | k + 1 => treeFields k ++ [rwBad (7 * k + 6) (7 * k + 3) [(8, 15)], rw (7 * k + 2) (7 * k)]

/-- FAB registers (14). -/
def regsFabric : List RegSpec := [
  one Reg.fabCtl [rw 0 0],
  one Reg.fabEvt [w1c 15 0],
  one Reg.fabEvtEn [rw 15 0],
  one Reg.fabCfgSrcLo [rw 31 10],
  one Reg.fabCfgSrcHi [rw 4 0],
  one Reg.fabCfgCtl [rwBad 31 30 [(2, 3)], rw 29 27, rwBad 8 0 [(457, 511)]],
  many Reg.fabRexp 8 4 [rw 31 0],
  many Reg.fabRclk 8 4 (rw 31 31 :: treeFields 4),
  many Reg.fabCam 4 4 [rw 31 31, rw 29 28, rwBad 27 26 [(3, 3)], rw 12 8, rw 7 0],
  many Reg.fabCamstat 4 4 [rc 15 0],
  many Reg.fabQcfg 128 0x20 [rwBad 31 29 [(6, 7)], rwBad 28 26 [(7, 7)], rw 25 24, rw 22 16, rw 15 15],
  many Reg.fabQthr 128 0x20 [rw 31 16, rw 15 0],
  many Reg.fabQstat 128 0x20 [w1c 7 5]]

/-- The fields of FLT_SRCn (15). -/
def srcFields : List Field :=
  [rw 31 31, rw 30 30, rw 29 29, rwBad 28 27 [(3, 3)], rwBad 26 23 [(0, 0)], rwBad 10 0 [(1025, 2047)]]

/-- FLT, PWR and WDN registers (15, 16). FLT_SRC16–18 ignore writes. -/
def regsFault : List RegSpec := [
  one Reg.fltStat [w1c 7 5],
  one Reg.fltCtl [rw 0 0],
  one Reg.fltIsomask [rw 15 0],
  many Reg.fltSrc 16 4 srcFields,
  one (Reg.fltSrc + 4 * 19) srcFields,
  one Reg.fltCntsel [rwBad 23 16 [(0x14, 0xFF)], rw 8 0],
  one Reg.fltSwd [rwBad 31 24 [(0, 0), (101, 255)], rw 23 20, rwBad 15 0 [(0, 0)]],
  one Reg.fltTkvbase [rw 31 12],
  one Reg.fltWdn [rc 15 8],
  one Reg.fltLogCtl [w1cAll 31 16],
  one Reg.pwrAclk [rw 8 8, rwBad 4 0 [(0, 3), (17, 31)]],
  one Reg.pwrAclkTgtLo [rw 31 0],
  one Reg.pwrAclkTgtHi [rw 15 0],
  one Reg.pwrVin [rc 31 16],
  one Reg.pwrWakecfg [rwBad 19 16 [(0, 0)], rw 15 8, rw 2 2, rw 1 1, rw 0 0],
  one Reg.wdnTagstat [w1c 1 1],
  one Reg.wdnFlAddr [rw 26 12],
  many Reg.wdnFlBuf 1024 4 [rw 31 0]]

/-- Every register with a field that a write or a read changes. -/
def regTable : List RegSpec :=
  regsHelm ++ regsLoader ++ regsQueue ++ regsPilot ++ regsMemory ++ regsFerry ++ regsFabric ++ regsFault

/-- Whether `off` is one of the run's registers. -/
def RegSpec.holds (r : RegSpec) (off : Nat) : Bool :=
  decide (r.base ≤ off) && decide ((off - r.base) % r.stride = 0) &&
    decide ((off - r.base) / r.stride < r.count)

/-- The changeable fields of the register at `off`; none where it has none. -/
def regFields (off : Nat) : List Field :=
  match regTable.find? (fun r => r.holds off) with
  | some r => r.fields
  | none => []

/-- The block of a register: its BAR0 offset in MiB. -/
def blockOf (off : Nat) : Nat := off / 0x100000

/-- What the host may write of a register. -/
inductive HostPerm where
  | none
  | flags     -- W1C and RC fields only
  | all
  deriving DecidableEq, Repr

/-- What the host may write (the rules of the file's head); DBG and GW registers are governed by R553. -/
def hostPerm (off : Nat) : HostPerm :=
  match blockOf off with
  | 0 => .flags
  | 1 => if (Reg.hlmPatch ≤ off ∧ off ≤ Reg.hlmPatchCommit) ∨ (Reg.hlmKsub ≤ off ∧ off ≤ Reg.hlmKsubGo)
           ∨ off = Reg.hlmFpevPop then .none else .all
  | 2 => if (Reg.ldrXsub ≤ off ∧ off ≤ Reg.ldrXsubGo) ∨ off = Reg.ldrCkptLo ∨ off = Reg.ldrCkptHi
           then .none else .all
  | 3 => if off = Reg.ttbAck ∨ off = Reg.ttbNtfPop then .none else .all
  | 4 => if off = Reg.queMbRes ∨ off = Reg.queMbDone then .none else .all
  | 5 => .none
  | 6 => .flags
  | 7 => if off = Reg.nocStsel ∨ off = Reg.nocStclr ∨ off = Reg.nocEvt then .all else .none
  | 8 => .flags
  | 9 => if Reg.fabQcfg ≤ off ∧ off < Reg.fabQcommit ∧
            ((off - Reg.fabQcfg) % 0x20 = 0x10 ∨ (off - Reg.fabQcfg) % 0x20 = 0x14) then .all else .flags
  | 10 => .flags
  | 11 => if off = Reg.pwrCmd ∨ (Reg.wdnTag ≤ off ∧ off < Reg.wdnFlBuf) then .all else .flags
  | 12 => if off = Reg.drcScrub then .all else .flags
  | _ => .none

/-- The least Pilot level that may write a register (R359 and each block's rule). -/
def pilotLevel (off : Nat) : Nat :=
  match blockOf off with
  | 1 => if Reg.hlmPatch ≤ off ∧ off ≤ Reg.hlmPatchCommit then 2 else 1
  | 5 => if off < 0x508000 then (if off = Reg.pltIrqEn ∨ off = Reg.pltWdogKick then 1 else 2) else 1
  | 7 => if off = Reg.nocTmo ∨ off = Reg.nocRtsel ∨ off = Reg.nocRtdata ∨ off = Reg.nocRtCommit ∨
            off = Reg.nocIsocmd ∨ off = Reg.nocPrio0 then 2 else 1
  | 8 => if off = Reg.fryNode ∨ off = Reg.fryTree ∨ off = Reg.fryTreeCommit ∨ off = Reg.fryEpoch ∨
            off = Reg.fryMbumpLo ∨ off = Reg.fryMbumpHi then 2 else 1
  | 9 => if off = Reg.fabEvt ∨ off = Reg.fabEvtEn ∨ (Reg.fabQcfg ≤ off ∧ off < Reg.fabQcommit ∧
            ((off - Reg.fabQcfg) % 0x20 = 0x10 ∨ (off - Reg.fabQcfg) % 0x20 = 0x14)) then 1 else 2
  | 10 => if off = Reg.fltCtl ∨ off = Reg.fltIsomask ∨ (Reg.fltSrc ≤ off ∧ off ≤ Reg.fltSrcCommit) ∨
             off = Reg.fltSwd ∨ off = Reg.fltSwdCommit ∨ off = Reg.fltTkvbase then 2 else 1
  | 11 => if off = Reg.pwrWakecfg ∨ off = Reg.wdnFlAddr ∨ off = Reg.wdnFlCmd ∨ Reg.wdnFlBuf ≤ off then 2
          else 1
  | _ => 1

/-- A Pilot's access to a register is refused at a level (R25, R359, and each block's rule). Every level reads GLB, and
of its registers only a write of GLB_ERR is refused at level 0 (R25); log 181. -/
def mmioRefuses (level : Nat) (wr : Bool) (off : Nat) : Bool :=
  if blockOf off = 0 then wr && decide (off = Reg.glbErr) && decide (level = 0)
  else if wr then decide (level < pilotLevel off)
  else decide (level = 0)

/-- The registers whose Pilot writes are ignored (R304). -/
def pilotIgnored (off : Nat) : Bool :=
  decide (off = Reg.queCtl) || decide (off = Reg.queB4base) ||
    (decide (Reg.queAdmSqbLo ≤ off) && decide (off ≤ Reg.queAdmCommit))

/-- Whether a code is reserved for a field. -/
def Field.reserved (f : Field) (v : Nat) : Bool := f.bad.any fun (a, b) => decide (a ≤ v) && decide (v ≤ b)

/-- One field of a write: the register afterwards, and whether the code was reserved (R3, R4). -/
def Field.write (f : Field) (val old : Word) : Word × Bool :=
  let v := bits val f.hi f.lo
  match f.acc with
  | .rw => if f.reserved v then (old, true) else (setBits old f.hi f.lo v, false)
  | .w1c => (setBits old f.hi f.lo (bits (old &&& ~~~val) f.hi f.lo), false)
  | .w1cAll => (if v = 0 then old else setBits old f.hi f.lo 0, false)
  | .rc => (old, false)

/-- A write of all the fields that the writer may change. -/
def writeFields : List Field → Word → Word → Word × Bool
  | [], _, old => (old, false)
  | f :: t, val, old =>
    let (w, r) := f.write val old
    let (w', r') := writeFields t val w
    (w', r || r')

/-- The register after a read has cleared its RC fields. -/
def clearRc : List Field → Word → Word
  | [], w => w
  | f :: t, w => clearRc t (if f.acc = .rc then setBits w f.hi f.lo 0 else w)

/-- Whether a read of the register clears a field. -/
def hasRc (off : Nat) : Bool := (regFields off).any fun f => decide (f.acc = .rc)

end Sys2Proof.Machine
end

