-- ==== Sys2Proof/Machine/Ops.lean ====
section
/-!
DEFINITION. The named operations that every unit shares: plain registers, free values, what leaves the
module, reports to the fault manager, and accesses to module memory over the on-chip network (12).
-/
namespace Sys2Proof.Machine

/-! ## Registers -/

/-- The stored fields of the register at a BAR0 offset. -/
def reg (s : State) (off : Nat) : Word := storeGet 0 s.regs off

/-- Store a register. -/
def setReg (s : State) (off : Nat) (v : Word) : State := { s with regs := storePut 0 s.regs off v }

/-- A field of a stored register. -/
def getField (s : State) (off hi lo : Nat) : Nat := bits (reg s off) hi lo

/-- Set a field of a stored register. -/
def setField (s : State) (off hi lo v : Nat) : State := setReg s off (setBits (reg s off) hi lo v)

/-- Set one bit of a stored register. -/
def setFlag (s : State) (off i : Nat) : State := setField s off i i 1

/-- A flag of a stored register. -/
def getFlag (s : State) (off i : Nat) : Bool := bit (reg s off) i

/-- Add to a counting field, which saturates at its greatest value. -/
def countField (s : State) (off hi lo by_ : Nat) : State :=
  setField s off hi lo (satAdd (getField s off hi lo) by_ (2 ^ (hi + 1 - lo) - 1))

/-- Two registers as one number, low half first. -/
def reg2 (s : State) (lo hi : Nat) : Nat := (reg s lo).toNat + (reg s hi).toNat * 2 ^ 32

/-- The NI of a register block, by the BAR0 offset in MiB (R410). -/
def blockNi (off : Nat) : Nat :=
  match blockOf off with
  | 1 => 3
  | 2 => 3
  | 3 => 4
  | 4 => 11
  | 5 => 0
  | 8 => 5
  | 9 => 6
  | 12 => 9
  | _ => 14

/-- Whether an NI is isolated (R419). -/
def isolated (s : State) (ni : Nat) : Bool := bit (reg s Reg.nocIsoLo) ni

/-- Region r. -/
def regionOf (s : State) (r : Nat) : Region := storeGet Region.none s.fab.regions r

/-- Region r is RUNNING. -/
def regionRuns (s : State) (r : Nat) : Bool := decide ((regionOf s r).phase = .running)

/-- Some region is RUNNING. -/
def anyRuns (s : State) : Bool := (List.range 8).any (regionRuns s)

/-- The NI through which a writer reaches registers (R409, R410). -/
def writerNi (wr : Writer) : Nat :=
  match wr with
  | .host => 11
  | .pilot => 0
  | .debug => 15
  | .fabric => 6

/-- The level of the debug session that stands, 0 for none (R558). -/
def debugLevel (s : State) : Nat :=
  match s.dbg.session with
  | some (l, _) => l.toNat
  | none => 0

/-- SRC code of a writer in GLB_ERR (R24). It names none for user logic, and code 3 never occurs: one of the three others,
left open (log 31). -/
def writerCode (wr : Writer) : Nat :=
  match wr with
  | .host => 0
  | .pilot => 1
  | .debug => 2
  | .fabric => Config.fabricWriterCode % 3

/-- A write placed a reserved encoding in a field of the register at `off`: GLB_ERR records it (R4, R24). -/
def noteReserved (s : State) (wr : Writer) (off : Nat) : State :=
  if getFlag s Reg.glbErr 31 then setFlag s Reg.glbErr 30
  else setReg s Reg.glbErr
    (setBits (setBits (setBit (reg s Reg.glbErr) 31 true) 25 24 (writerCode wr)) 23 0 (off / 4))

/-! ## Free values, answers, outputs, reports -/

/-- The next value that the manual leaves open. -/
def freeNat (s : State) : Nat := Config.freeValue s.free

/-- The state after one free value has been taken. -/
def usedFree (s : State) : State := { s with free := s.free + 1 }

/-- The next free value as a plane. -/
def freePlane (s : State) : Plane := BitVec.ofNat peCount (freeNat s)

/-- The next free value as a word. -/
def freeWord (s : State) : Word := BitVec.ofNat 32 (freeNat s)

/-- What a command that reads something returns. -/
def answerWith (s : State) (l : List Nat) : State := { s with reply := l }

/-- Something leaves the module. -/
def emit (s : State) (o : Out) : State := { s with out := s.out ++ [o] }

/-- A unit reports an event to the fault manager, which takes it with FAULT_EVENT. -/
def report (s : State) (src inst : Nat) (detail : Word) : State :=
  { s with flt := { s.flt with
      reports := s.flt.reports ++ [⟨BitVec.ofNat 8 src, BitVec.ofNat 9 inst, detail⟩] } }

/-- The modes that take ticks (R244). -/
def Mode.ticks (m : Mode) : Bool := decide (m = .run) || decide (m = .degraded) || decide (m = .bench)

/-- The module runs sailings. -/
def runs (s : State) : Bool := s.mode.ticks

/-- A step of the rotating self-test runs (FLT_STAT.BISTBUSY, R506). -/
def bistBusy (s : State) : Bool := decide (s.now < s.flt.bistEnd)

/-- The Loader's plane accesses wait: the array clock is changing (R221), or a self-test step has the tiles (R506). -/
def slotsWait (s : State) : Bool := s.helm.paused || bistBusy s

/-- A Ferry event (13, FRY_EVT). -/
def fryEvent (s : State) (k : Nat) : State := setFlag s Reg.fryEvt k

/-- A fabric event (14, FAB_EVT). -/
def fabEvent (s : State) (k : Nat) : State := setFlag s Reg.fabEvt k

/-! ## Module addresses (R397, R408, R410) -/

/-- Size of module DRAM: 128 GiB. -/
def dramSize : Nat := 0x2000000000

/-- Size of a bank: 8 MiB. -/
def bankSize : Nat := 0x800000

/-- Module address of an offset in a bank (R408). -/
def bankAddr (n off : Nat) : Nat := 0x8000000000 + n * 0x1000000 + off

/-- What stands at a module address (R408). -/
inductive Place where
  | dram
  | bank (n off : Nat)
  | regs (off : Nat)
  | hole
  deriving DecidableEq, Repr

/-- The module map (R408). -/
def place (a : Nat) : Place :=
  if a < dramSize then .dram
  else if 0x8000000000 ≤ a ∧ a < 0x8004000000 ∧ a % 0x1000000 < bankSize then
    .bank ((a - 0x8000000000) / 0x1000000) (a % 0x1000000)
  else if 0x80F0000000 ≤ a ∧ a < 0x80F0D00000 then .regs (a - 0x80F0000000)
  else .hole

/-- The NI of a bank's NoC port (R410). -/
def bankNi (n : Nat) : Nat :=
  match n with
  | 0 => 1
  | 1 => 2
  | 2 => 12
  | _ => 7

/-- The target NI of a place, if some target claims the address. -/
def Place.ni (p : Place) : Option Nat :=
  match p with
  | .dram => some 9
  | .bank n _ => some (bankNi n)
  | .regs off => some (blockNi off)
  | .hole => none

/-- The stop and spur of an NI (R410). -/
def niStop (n : Nat) : Nat × Nat :=
  match n with
  | 0 => (0, 0) | 1 => (1, 0) | 2 => (1, 1) | 3 => (2, 0) | 4 => (2, 1) | 5 => (3, 0) | 6 => (4, 0)
  | 7 => (4, 1) | 8 => (5, 0) | 9 => (6, 0) | 10 => (7, 0) | 11 => (8, 0) | 12 => (8, 1) | 13 => (9, 0)
  | 14 => (10, 0) | _ => (10, 1)

/-- Whether an NI is an initiator (R410). -/
def niInitiates (n : Nat) : Bool := [0, 3, 4, 5, 6, 8, 10, 11, 13, 14, 15].contains n

/-- Ring code c repeated for the first k hops, then the spur code. -/
def ringPorts (c spur : Nat) : Nat → Nat → Nat
  | 0, i => (2 + spur) <<< (3 * i)
  | k + 1, i => (c <<< (3 * i)) ||| ringPorts c spur k (i + 1)

/-- The shortest route from an initiator to a target, in the NOC_RTDATA layout (R412). -/
def shortestRoute (src dst : Nat) : Word :=
  let (a, _) := niStop src
  let (b, spur) := niStop dst
  let cw := (b + 11 - a) % 11
  let links := min cw (11 - cw)
  let code := if cw ≤ 11 - cw then 0 else 1
  flg true 31 ||| fld (links + 1) 24 ||| BitVec.ofNat 32 (ringPorts code spur links 0)

/-- The committed route entry (R411–R413). -/
def routeOf (s : State) (src dst : Nat) : Word :=
  match storeGet none s.mem.routes (src * 64 + dst) with
  | some w => w
  | none => if niInitiates src ∧ dst < 16 then shortestRoute src dst else 0

/-! ## Responses, isolation, statistics -/

/-- Response codes (R420). -/
def Resp.code (r : Resp) : Nat :=
  match r with
  | .ok => 0 | .collided => 1 | .dead => 2 | .unmapped => 3 | .dataerr => 4 | .protect => 5 | .timeout => 6

/-- What a response other than OK leaves behind: the report to the fault manager (R418, R421, R502) and
NOC_EVT. A DATAERR counts under the ECC source of its memory. -/
def nocFailure (s : State) (ni tgt : Nat) (r : Resp) : State :=
  match r with
  | .ok => s
  | .dataerr => s
  | .timeout =>
    report (setFlag (countField s Reg.nocTmocnt 31 0 1) Reg.nocEvt 0) 0x09 tgt (fld ni 0)
  | .dead => report (setFlag s Reg.nocEvt 1) 0x13 ni (fld r.code 0 ||| fld tgt 8)
  | r => report s 0x13 ni (fld r.code 0 ||| fld tgt 8)

/-- Statistics of an initiator: a request, its bytes, and its latency in some bin (12, NOC_HISTk); a timeout counts
in bin 7, and the bin of any other response is a free value. -/
def nocCount (s : State) (ni len : Nat) (late : Bool) : State :=
  let st := storeGet NiStat.none s.mem.stats ni
  let bin := if late then 7 else freeNat s % 8
  let st' : NiStat :=
    { req := satAdd st.req 1 0xFFFFFFFF, bytes := (st.bytes + len) % 2 ^ 64,
      hist := st.hist.set bin (satAdd (st.hist.getD bin 0) 1 0xFFFFFFFF) }
  usedFree { s with mem := { s.mem with stats := storePut NiStat.none s.mem.stats ni st' } }

/-- What a request of an initiator meets on its way to the target of an address: the initiator's isolation drops it
(R419), no target or no route gives UNMAPPED (R408, R412), an isolated target DEAD (R419), DRAM before INITDONE
nothing in time (R401, R418). -/
def gateResp (s : State) (ni a : Nat) : Resp :=
  if isolated s ni then .timeout
  else match (place a).ni with
    | none => .unmapped
    | some t =>
      if bit (routeOf s ni t) 31 = false then .unmapped
      else if isolated s t then .dead
      else if place a = .dram ∧ getFlag s Reg.drcStat 1 = false then .timeout
      else .ok

/-- A request of an initiator is sent: its statistics, and what a response other than OK leaves behind. An isolated
NI counts the packet as dropped (R419); which NI answers where no target claims the address is a free value. -/
def nocGate (s : State) (ni a : Nat) : State × Resp :=
  let r := gateResp s ni a
  let t := nocCount s ni 0 (decide (r = .timeout))
  if r = .ok then (t, .ok)
  else
    let t := if isolated s ni then countField t Reg.nocEvt 31 16 1 else t
    match (place a).ni with
    | some tgt => (nocFailure t ni tgt r, r)
    | none => (nocFailure (usedFree t) ni (freeNat t % 64) r, r)

/-! ## Register writes (R24, R300, R359, R565) -/

/-- Module address of a register (R408). -/
def regAddr (off : Nat) : Nat := 0x80F0000000 + off

/-- A writer's request reaches the unit of a register over the network (R410, R412, R419). -/
def reachesUnit (s : State) (wr : Writer) (off : Nat) : Bool := decide (gateResp s (writerNi wr) (regAddr off) = .ok)

/-- User logic runs and its write takes effect on a register. -/
def fabricMay (s : State) (off : Nat) : Bool := anyRuns s && decide (blockOf off ≠ 0) && !pilotIgnored off

/-- A write that reaches a register takes effect: the host may write the register and the module is not held
(R300), a Pilot runs at the level it needs, and the debugger, whose session may write, acts as a Pilot at level 2
(R24, R558, R565). No rule bounds what user logic may write, but for the registers that ignore all others (R25, R304;
log 31). -/
def writerMay (s : State) (wr : Writer) (off : Nat) : Bool :=
  s.hx1 && reachesUnit s wr off && match wr with
    | .host => decide (hostPerm off = .all) && !s.wdn.held
    | .pilot => decide (pilotLevel off ≤ s.plt.pl.toNat) && !pilotIgnored off
    | .debug => decide (2 ≤ debugLevel s) && !s.wdn.held && !pilotIgnored off
    | .fabric => fabricMay s off

/-! ## Words, ECC and the Pilots' cache -/

/-- The aligned 8-byte words that n bytes from a touch. -/
def wordsOf (a n : Nat) : List Nat := if n = 0 then [] else rangeFrom (a / 8) ((a + n - 1) / 8 + 1 - a / 8)

/-- Whether n bytes from a cover the whole word w. -/
def covers (a n w : Nat) : Bool := decide (a ≤ 8 * w) && decide (8 * w + 8 ≤ a + n)

/-- Count, record and report an ECC event of word w of the module map (R390, R399, R423); `side` is the port
bit of a bank and the scrubber bit of DRAM. -/
def eccEvent (s : State) (w : Nat) (d : Damage) (side : Bool) : State :=
  match place (8 * w) with
  | .bank n off =>
    let detail := flg side 31 ||| fld (off / 8) 3
    match d with
    | .single => report (countField s (Reg.bnkEcc + 4 * n) 31 16 1) 0x03 n detail
    | .uncorrectable =>
      let s := countField s (Reg.bnkEcc + 4 * n) 15 0 1
      let u := Reg.bnkUeaddr + 4 * n
      let s := if getFlag s u 31 then s
        else setReg s u (flg true 31 ||| flg side 30 ||| fld (off / 8) 3)
      report s 0x04 n detail
  | .dram =>
    let port := (8 * w / 256) % 8
    let detail := BitVec.ofNat 32 (8 * w / 64)
    match d with
    | .single => report (countField s Reg.drcEcc 31 16 1) 0x05 port detail
    | .uncorrectable =>
      let s := countField s Reg.drcEcc 15 0 1
      let s := if getFlag s Reg.drcUeaddrHi 31 then s
        else setReg (setReg s Reg.drcUeaddrLo (BitVec.ofNat 32 (8 * w)))
          Reg.drcUeaddrHi (flg true 31 ||| flg side 30 ||| fld (8 * w / 2 ^ 32) 0)
      report s 0x06 port detail
  | _ => s

/-- The damage of word w. -/
def damageAt (s : State) (w : Nat) : Option Damage := (s.mem.damage.find? (fun p => p.1 = w)).map (·.2)

/-- Word w has been written whole, or merged: its check bits are fresh and no write-back is owed. -/
def freshWord (s : State) (w : Nat) : State :=
  { s with mem := { s.mem with damage := s.mem.damage.filter (fun p => decide (p.1 ≠ w)),
                               wb := s.mem.wb.filter (fun x => decide (x ≠ w)) } }

/-- A read of word w: its event, and the write-back owed for a corrected word. -/
def readWord (s : State) (side : Bool) (w : Nat) : State :=
  match damageAt s w with
  | none => s
  | some .uncorrectable => eccEvent s w .uncorrectable side
  | some .single =>
    let s := eccEvent s w .single side
    if w ∈ s.mem.wb then s else { s with mem := { s.mem with wb := s.mem.wb ++ [w] } }

/-- Whether one of the words is uncorrectable. -/
def anyBad (s : State) (ws : List Nat) : Bool := ws.any fun w => decide (damageAt s w = some .uncorrectable)

/-- The Pilots write back the dirty lines that satisfy a test: their words get fresh check bits (R404). -/
def writeBack (s : State) (hit : Nat → Bool) : State :=
  let gone (w : Nat) : Bool := s.mem.dirty.any fun p => decide (p.1 = w / 8) && hit p.1
  { s with mem := { s.mem with
    dirty := s.mem.dirty.filter (fun p => !hit p.1),
    damage := s.mem.damage.filter (fun p => !gone p.1), wb := s.mem.wb.filter (fun w => !gone w) } }

/-- Another requester's access makes the Pilots write back their dirty lines first (R404). -/
def snoop (s : State) (a n : Nat) : State :=
  if n = 0 then s else writeBack s fun l => decide (a / 64 ≤ l) && decide (l ≤ (a + n - 1) / 64)

/-- Another requester's write clears the exclusive reservation of a block it touches (R330, R405). -/
def loseReservation (s : State) (a n : Nat) : State :=
  match s.plt.resv with
  | none => s
  | some b =>
    if n ≠ 0 ∧ a / 64 ≤ b ∧ b ≤ (a + n - 1) / 64 then { s with plt := { s.plt with resv := none } } else s

/-! ## Bytes -/

/-- Whether a byte holds a queue context, whose layout the manual leaves to the engine. -/
def inContexts (a : Nat) : Bool := decide (bankAddr 2 0 ≤ a) && decide (a < bankAddr 2 0x400000)

/-- One byte of module memory. -/
def memByte (s : State) (a : Nat) : Byte := storeGet 0 s.mem.bytes a

/-- The bytes at n addresses from a. -/
def memBytes (s : State) (a n : Nat) : List Byte := (rangeFrom a n).map (memByte s)

/-- Write bytes from address a. -/
def putBytes (l : List (Nat × Byte)) (a : Nat) : List Byte → List (Nat × Byte)
  | [] => l
  | b :: t => putBytes (storePut 0 l a b) (a + 1) t

/-- State with bytes written, and nothing else. -/
def pokeBytes (s : State) (a : Nat) (bs : List Byte) : State :=
  { s with mem := { s.mem with bytes := putBytes s.mem.bytes a bs } }

/-- A read of n bytes at a: events of its words, whether one is uncorrectable, and the bytes. Each byte of a queue context
is free. -/
def memRead (s : State) (side : Bool) (a n : Nat) : State × Bool × List Byte :=
  let ws := wordsOf a n
  let bad := anyBad s ws
  let s' := ws.foldl (fun s w => readWord s side w) s
  if inContexts a then
    (usedFree s', bad, (rangeFrom a n).map fun b => if inContexts b then byteOf (freeNat s') (b - a) else memByte s b)
  else (s', bad, memBytes s a n)

/-- The merge read of a partial write of word w (R389, R398). -/
def mergeWord (s : State) (side : Bool) (a n w : Nat) : State :=
  match damageAt s w with
  | some d => if covers a n w then s else eccEvent s w d side
  | none => s

/-- A write of bytes at a: the merge reads' events, and whether it was performed; one uncorrectable merge
read refuses the whole request (R389, R390, R398). -/
def memWrite (s : State) (side : Bool) (a : Nat) (bs : List Byte) : State × Bool :=
  let n := bs.length
  let ws := wordsOf a n
  let refused := ws.any fun w => decide (damageAt s w = some .uncorrectable) && !covers a n w
  let s := ws.foldl (fun s w => mergeWord s side a n w) s
  if refused then (s, false)
  else (pokeBytes (ws.foldl freshWord s) a bs, true)

/-! ## Requests over the network -/

/-- Bytes carried by a request of an initiator. -/
def nocBytes (s : State) (ni len : Nat) : State :=
  let st := storeGet NiStat.none s.mem.stats ni
  { s with mem := { s.mem with
      stats := storePut NiStat.none s.mem.stats ni { st with bytes := (st.bytes + len) % 2 ^ 64 } } }

/-- Whether n bytes from a lie in one target. -/
def oneTarget (a n : Nat) : Bool := decide (n = 0) || decide ((place a).ni = (place (a + n - 1)).ni)

/-- A read of n bytes of memory by an initiator other than a bank's home master. -/
def nocRead (s : State) (ni a n : Nat) : State × Resp × List Byte :=
  match nocGate s ni a with
  | (s, .ok) =>
    if oneTarget a n = false then (nocFailure s ni (((place a).ni).getD 0) .unmapped, .unmapped, [])
    else
      let s := if ni = 0 then s else snoop s a n
      let (s, bad, bs) := memRead (nocBytes s ni n) (decide (place a ≠ .dram)) a n
      (s, if bad then .dataerr else .ok, bs)
  | (s, r) => (s, r, [])

/-- Ranges that a bank's NoC port protects (R394). -/
def protectedAt (a n : Nat) : Bool :=
  match place a with
  | .bank 0 off => decide (0x7C0000 < off + n)
  | .bank 1 off => decide (0x7FFF00 < off + n)
  | .bank 2 off => decide (off < 0x400000)
  | _ => false

/-- One COLLIDED answer of a bank (R391, BNK_COLLn). -/
def collide (s : State) (ni a : Nat) : State :=
  match place a with
  | .bank n _ => nocFailure (countField s (Reg.bnkColl + 4 * n) 31 0 1) ni (bankNi n) .collided
  | _ => s

/-- `k` COLLIDED answers, four at most (R357, R421). -/
def collideTimes (s : State) (ni a : Nat) : Nat → State
  | 0 => s
  | k + 1 => collide (collideTimes s ni a k) ni a

/-- Length of the next request of a write of n bytes at a: a bank's NoC port takes 1 to 8 bytes or an aligned
block of 64, and the interface splits other writes (R393); DRAM takes the bytes of one 64-byte block. -/
def pieceLen (inBank : Bool) (a n : Nat) : Nat :=
  if inBank = false then min n (64 - a % 64)
  else if n ≤ 8 then n
  else if a % 64 = 0 ∧ 64 ≤ n then 64
  else 8 - a % 8

/-- The requests of a write, one after the other; `hits` is how often the bank answers COLLIDED to each, and the
fourth time the request has not been performed (R391, R421). The first response other than OK is the answer. -/
def writePieces (ni : Nat) (inBank : Bool) : Nat → State → Nat → List Byte → List Nat → State × Resp
  | 0, s, _, _, _ => (s, .ok)
  | fuel + 1, s, a, bs, hits =>
    if bs = [] then (s, .ok)
    else
      let k := pieceLen inBank a bs.length
      let c := if inBank then hits.headD 0 else 0
      let (s, r) : State × Resp :=
        if protectedAt a k then (nocFailure s ni (((place a).ni).getD 0) .protect, .protect)
        else if 4 ≤ c then (collideTimes s ni a 4, .collided)
        else
          let s := collideTimes s ni a c
          let (s, ok) := memWrite (if ni = 0 then s else loseReservation (snoop s a k) a k) inBank a (bs.take k)
          (s, if ok then .ok else .dataerr)
      let (s, r') := writePieces ni inBank fuel s (a + k) (bs.drop k) (hits.drop 1)
      (s, if r = .ok then r' else r)

/-- A write by an initiator other than a bank's home master; `hits` is how often the bank answers COLLIDED to each
of its requests. -/
def nocWrite (s : State) (ni a : Nat) (bs : List Byte) (hits : List Nat) : State × Resp :=
  let n := bs.length
  match nocGate s ni a with
  | (s, .ok) =>
    if oneTarget a n = false then (nocFailure s ni (((place a).ni).getD 0) .unmapped, .unmapped)
    else writePieces ni (decide (place a ≠ .dram)) n (nocBytes s ni n) a bs hits
  | (s, r) => (s, r)

/-- A Pilot's write to a bank, which is performed whole or not at all (R341, R357, R358, R361); `collided` is how
often the bank answers COLLIDED. DESIGN CHOICE (log 179): where the interface splits a block step, its first request
is the one that collides. -/
def pilotBankWrite (s : State) (a : Nat) (bs : List Byte) (collided : Nat) : State × Resp :=
  let (t, r) := nocWrite s 0 a bs [collided]
  if r = .ok then (t, r)
  else ({ t with mem := { t.mem with bytes := s.mem.bytes, damage := s.mem.damage, wb := s.mem.wb } }, r)

/-- A home master's read of its own bank. -/
def homeRead (s : State) (bank off n : Nat) : State × Bool × List Byte := memRead s false (bankAddr bank off) n

/-- A home master's write of its own bank; the reservation is the Pilot's own matter in Bank 0. -/
def homeWrite (s : State) (bank off : Nat) (bs : List Byte) : State × Bool :=
  let a := bankAddr bank off
  let s := if bank = 0 then s else loseReservation s a bs.length
  memWrite s false a bs

end Sys2Proof.Machine
end

