-- ==== Sys2Proof/Machine/LinkCore.lean ====
section
/-!
DEFINITION. The link layer of the Ferry ports: flits and their layout (R429), the replay buffer (R430), credits and
the order of classes (R431), and the port toward a node (R433, R434).
-/
namespace Sys2Proof.Machine

/-- A change of the Ferry block's state. -/
def updFry (s : State) (f : FryState → FryState) : State := { s with fry := f s.fry }

/-- Port n. -/
def portAt (s : State) (n : BitVec 2) : PortState := s.fry.ports[n.toNat]'n.isLt

/-- Store port n. -/
def setPort (s : State) (n : BitVec 2) (p : PortState) : State :=
  updFry s fun f => { f with ports := f.ports.set n.toNat p n.isLt }

/-- The ports, by rising index. -/
def allPorts : List (BitVec 2) := [0, 1, 2, 3]

/-! ## Classes and layout (R429, R431) -/

/-- The class that carries a message (R431): 0 COMBINE, 1 EDGE, 2 MGMT, 3 PKT. -/
def LinkMsg.cls (m : LinkMsg) : Nat :=
  match m with
  | .tick _ => 0
  | .tickReport _ _ => 0
  | .verdict _ => 0
  | .contribution _ _ _ _ _ => 0
  | .halo _ _ _ _ _ => 1
  | .announce _ _ _ => 2
  | .rejoinAsk _ => 2
  | .rejoinAnswer _ _ _ => 2
  | .packet _ _ _ _ _ _ _ => 3
  | .packetAck _ _ _ _ => 3
  | .doorbell _ _ _ _ _ => 3
  | .notice _ _ _ => 3

/-- The 256 bytes of a flit: CLASS, SEQ, ACK, CREDIT, PAYLOAD and CRC (R429). -/
def flitBytes (cls : Nat) (seq ack : Byte) (nak : Bool) (credits : List Nat) (payload : BitVec 1920) : List Byte :=
  let head := bytesOf cls 1 ++ [seq, ack] ++ bytesOf (if nak then 1 else 0) 1
  let body := head ++ credits.flatMap (fun c => bytesOf c 2) ++ bytesOf payload.toNat 240
  body ++ bytesOf (crc32c body).toNat 4

/-- No credits of any class. -/
def noCredits : List Nat := [0, 0, 0, 0]

/-- One credit more of a class. -/
def addCredit (l : List Nat) (cls : Nat) : List Nat := l.set cls (l.getD cls 0 + 1)

/-! ## Sending (R430, R431) -/

/-- A flit leaves: it acknowledges what the port has received in order and returns the credits that it owes. -/
def putFlit (s : State) (n : BitVec 2) (seq : Byte) (payload : BitVec 1920) (m : LinkMsg) : State :=
  let p := portAt s n
  let bits : BitVec 2048 := BitVec.ofNat 2048 (numOf (flitBytes m.cls seq p.rxSeq false p.owed payload))
  emit (setPort s n { p with owed := noCredits }) (.flit n bits m)

/-- The flit of an answer: ACK, NAK and CREDIT as R429 lays them out. Its class, its SEQ and its payload are not given:
they are free (DESIGN CHOICE, log 203). -/
def answerBits (s : State) (p : PortState) (ack : Byte) (nak : Bool) : BitVec 2048 :=
  BitVec.ofNat 2048 (numOf (flitBytes (freeNat s % 4) (BitVec.ofNat 8 (freeNat s / 4)) ack nak p.owed
    (BitVec.ofNat 1920 (freeNat s / 1024))))

/-- An answer to a received flit: an acknowledgement or a NAK, with the credits owed. -/
def answerFlit (s : State) (n : BitVec 2) (ack : Byte) (nak : Bool) : State :=
  let p := portAt s n
  emit (setPort (usedFree s) n { p with owed := noCredits }) (.flitAnswer n (answerBits s p ack nak))

/-- The waiting message that a port sends next: of the highest class that has a message and a credit, while the
replay buffer has room for 64 flits. -/
def nextFlit (p : PortState) : Option LinkMsg :=
  if 64 ≤ p.sent.length then none
  else ([0, 1, 2, 3] : List Nat).findSome? fun c =>
    if p.credits.getD c 0 = 0 then none else p.waiting.find? fun m => decide (m.cls = c)

/-- A waiting message goes out in a flit of its own, which stays in the replay buffer until it is acknowledged. The
layout of a class's payload is not given: its bits are free. -/
def transmit (s : State) (n : BitVec 2) (m : LinkMsg) : State :=
  let p := portAt s n
  let payload : BitVec 1920 := BitVec.ofNat 1920 (freeNat s)
  let s := setPort (usedFree s) n
    { p with waiting := p.waiting.erase m, sent := p.sent ++ [⟨p.txSeq, m, payload, 0⟩], txSeq := p.txSeq + 1,
             credits := p.credits.set m.cls (p.credits.getD m.cls 0 - 1) }
  putFlit s n p.txSeq payload m

/-- A port sends what it can, in order, up to k flits. -/
def pump : Nat → State → BitVec 2 → State
  | 0, s, _ => s
  | k + 1, s, n =>
    match nextFlit (portAt s n) with
    | none => s
    | some m => pump k (transmit s n m) n

/-- A port sends every waiting message that credits and the replay buffer let out. -/
def drainPort (s : State) (n : BitVec 2) : State := pump (portAt s n).waiting.length s n

/-- A port carries a message: an UP port any, a MISWIRED one MGMT only (R424). -/
def portCarries (p : PortState) (cls : Nat) : Bool :=
  decide (p.phase = .up) || (decide (p.phase = .miswired) && decide (cls = 2))

/-- A message for a port: it joins the waiting ones, of which those that may go are sent. A port that carries no such
message drops it. -/
def sendOn (s : State) (n : BitVec 2) (m : LinkMsg) : State :=
  let p := portAt s n
  if portCarries p m.cls then drainPort (setPort s n { p with waiting := p.waiting ++ [m] }) n else s

/-- A message on each of several ports. -/
def sendAll (s : State) (l : List (BitVec 2)) (m : LinkMsg) : State := l.foldl (fun s n => sendOn s n m) s

/-! ## Toward a node (R433, R434) -/

/-- The recorded port toward a node (R433). -/
def portToward (s : State) (node : BitVec 16) : Option (BitVec 2) :=
  (s.fry.known.find? fun n => decide (n.node = node)).map (·.port)

/-- A message leaves on the port toward a node. -/
def sendToward (s : State) (node : BitVec 16) (m : LinkMsg) : State :=
  match portToward s node with
  | some p => sendOn s p m
  | none => s

/-- PKT traffic of this module to a node is refused: two modules announce its ID, or this module's own (R434). -/
def packetsRefused (s : State) (node : BitVec 16) : Bool := decide (node ∈ s.fry.dups) || s.fry.selfDup

end Sys2Proof.Machine
end

