-- ==== Sys2Proof/Machine/Power.lean ====
section
/-!
DEFINITION. What the Warden and the power manager do to the module as a whole: modes and their entry, the
loss of the HX1's state, HEALTHY and its pulse, the sailing watchdog, alarms, the fault log, the array clock
and its thermal cap (01, 15, 16).
-/
namespace Sys2Proof.Machine

/-- A change of the Warden's own state. -/
def updWdn (s : State) (f : WdnState → WdnState) : State := { s with wdn := f s.wdn }

/-- Set a bit of ALERT_STATUS (R546). -/
def alert (s : State) (k : Nat) : State := updWdn s fun w => { w with alert := w.alert ||| BitVec.ofNat 8 (1 <<< k) }

/-- The sailing that an event counts under, 0 in LOAD (R497). -/
def eventSail (s : State) : Sail := if s.mode = .load then 0 else s.ttb.sail

/-- An entry of the fault log; a full log discards it and counts LOST (R523). -/
def logEntry (s : State) (kind src inst : Nat) (detail : Word) : State :=
  if 64 ≤ s.flt.log.length then countField s Reg.fltLogCtl 31 16 1
  else { s with flt := { s.flt with
      log := s.flt.log ++ [⟨BitVec.ofNat 4 kind, BitVec.ofNat 8 src, BitVec.ofNat 9 inst, detail, eventSail s⟩] } }

/-- The Warden raises ALARM: it stays pending until a Pilot takes it (R365). -/
def raiseAlarm (s : State) (detail : BitVec 8) : State :=
  if detail ∈ s.plt.alarms then s
  else { s with plt := { s.plt with alarms := s.plt.alarms ++ [detail] } }

/-- HEALTHY goes low (R2, R585). -/
def dropHealthy (s : State) : State :=
  let s := if s.wdn.healthy then alert s 1 else s
  updWdn s fun w => { w with healthy := false }

/-- HEALTHY goes low until the next LOAD (R516, R519–R521). -/
def dropHealthyForGood (s : State) : State :=
  updWdn (dropHealthy s) fun w => { w with noHealth := true }

/-- The module's mode changes (R532); HEALTHY stays high only between RUN and DEGRADED (R2). -/
def setMode (s : State) (m : Mode) : State :=
  if s.mode = m then s
  else
    let s := alert { s with mode := m } 0
    if m = .run ∨ m = .degraded then s else dropHealthy s

/-- The registers of the HX1 at their reset values, the Warden's PWR_WAKECFG kept (16). -/
def freshRegs (s : State) : List (Nat × Word) :=
  storePut 0 regsReset Reg.pwrWakecfg (reg s Reg.pwrWakecfg)

/-- The state of every unit of the HX1 is lost, or set as at the entry to LOAD. The Warden's own store, the
lockout of R556, and what stands outside the module are kept. -/
def freshHx1 (s : State) : State :=
  { s with
    regs := freshRegs s, arr := ArrayState.load, helm := HelmState.load, ldr := LdrState.load,
    ttb := TtbState.load, flt := FltState.load,
    que := { QueState.load with perst := s.que.perst },
    mem := MemState.load, plt := PilotState.load, fry := FryState.load s.wdn.straps.node,
    fab := FabState.load,
    dbg := { DbgState.load with fails := s.dbg.fails, lockEnd := s.dbg.lockEnd } }

/-- The Warden's records of a running module end with it. -/
def calmWarden (w : WdnState) : WdnState :=
  { w with
    holdup := none, ignOff := none, booting := false, verified := false,
    bootlim := none, selfTested := false, pilotBad := [], degradedFor := false, orders := [],
    benchFirst := false, aclkReq := 16, aclkPend := none, cap := 16, coolTicks := 0, aclkEff := 16,
    held := false, expired := false, noHealth := false, clkMiss := 0, unmarked := 0,
    markerSince := false, swdAt := none, swdFirst := false, flashOp := none, flashCode := 0 }

/-- Entry to STANDBY with its cause (R532, R533): the HX1 loses its supply. After SLEEP or a failed boot,
IGN_WAKE standing high must fall first; after a shutdown it may wake the module again. -/
def enterStandby (s : State) (cause : BitVec 8) : State :=
  let s := setMode s .standby
  let blocks : Bool := decide (cause = 1) || decide (cause = 2) || decide (cause = 8)
  let s := { freshHx1 s with hx1 := false }
  updWdn s fun w =>
    { calmWarden w with
      cause := cause, ignBlocked := w.ignBlocked || (blocks && w.ign), rewake := !blocks,
      thermal := if cause = 5 then some (s.now + 10000000000) else w.thermal, wardenHot := decide (cause = 5),
      dueAt := s.now + 10000000,
      waking := none, rails := false, resetting := false, others := [], limits := 0 }

/-- A module reset on the way to LOAD (R532): the HX1 is reset for 1 ms. The Warden senses VIN and IGN_WAKE all the while:
a hold-up and an IGNOFF timer run on (R529, R534, R538). -/
def moduleReset (s : State) : State :=
  let s := setMode s .load
  let s := { freshHx1 s with hx1 := false }
  updWdn s fun w =>
    { calmWarden w with holdup := w.holdup, ignOff := w.ignOff, resetting := true, waking := none, rails := false,
                        dueAt := s.now + 1000000 }

/-- RESTART (R532): LOAD through a module reset, with every image open to be tried again. -/
def doRestart (s : State) : State :=
  updWdn (moduleReset s) fun w => { w with wake := 5, others := [], limits := 0 }

/-- The higher sequence number of the two flash copies of the tag area, 0 where neither is valid (R543). -/
def tagSequence (w : WdnState) : Nat :=
  let number (t : Option (Nat × List (Nat × Byte))) : Nat := match t with | some p => p.1 | none => 0
  max (number w.tagA) (number w.tagB)

/-- What VWDN's loss leaves of a tag flash write that runs: the copy it was writing holds its old bytes, the new ones, or
none that are valid, which is open (log 205). -/
def cutTagWrite (s : State) : State :=
  match s.wdn.tagBusy with
  | none => s
  | some copy =>
    let old := if s.wdn.tagNextB then s.wdn.tagB else s.wdn.tagA
    let left := match freeNat s % 3 with
      | 0 => old
      | 1 => none
      | _ => some (tagSequence s.wdn + 1, copy)
    updWdn (usedFree s) fun w => if w.tagNextB then { w with tagB := left } else { w with tagA := left }

/-- OFF (R529): the Warden resets; flash keeps its contents. -/
def enterOff (s : State) : State :=
  let s := cutTagWrite s
  let s := { freshHx1 (setMode s .off) with hx1 := false, regs := regsReset }
  { s with
    wdn := { WdnState.load with
      rails := false, pinVin := s.wdn.pinVin, vin := s.wdn.vin, ign := s.wdn.ign, straps := s.wdn.straps,
      tagA := s.wdn.tagA, tagB := s.wdn.tagB,
      tagNextB := s.wdn.tagNextB, recordA := s.wdn.recordA, recordB := s.wdn.recordB,
      control := s.wdn.control, flash := s.wdn.flash, programmed := s.wdn.programmed },
    dbg := DbgState.load }

/-- The Warden orders a mode change; it waits for the next tick (R12, R532). -/
def order (s : State) (o : Order) : State :=
  if o ∈ s.wdn.orders then s else updWdn s fun w => { w with orders := w.orders ++ [o] }

/-! ## The sailing watchdog and HEALTHY_PULSE (R16, R517–R519) -/

/-- Arm the watchdog at an entry to RUN or DEGRADED from LOAD (R517). -/
def armWatchdog (s : State) : State :=
  updWdn s fun w =>
    { w with swdAt := some (s.now + bits s.flt.swd 15 0 * 1000000), swdFirst := true, unmarked := 0,
             markerSince := false }

/-- What an expiry does (R519). -/
def watchdogExpires (s : State) : State :=
  let s := updWdn (dropHealthyForGood s) fun w => { w with expired := true }
  logEntry (raiseAlarm s 3) 8 0x12 0 1

/-- The sailing watchdog may expire: in RUN or DEGRADED, and once until the next LOAD. Its timer and its count go on
after it has expired, as R518 has them, and whether it expires again is not said: it does not (DESIGN CHOICE, log 200). -/
def watchdogRuns (s : State) : Bool :=
  (decide (s.mode = .run) || decide (s.mode = .degraded)) && !s.wdn.expired

/-- A tick is signalled to the Warden, with the PERIOD in µs of the governing timetable (R518, R526). -/
def watchdogTick (s : State) (period : Nat) : State :=
  if s.wdn.swdAt.isSome ∧ (s.mode = .run ∨ s.mode = .degraded) then
    let swd := s.flt.swdNext
    let s := { s with flt := { s.flt with swd := swd } }
    let ns := if period = 0 then bits swd 15 0 * 1000000 else period * (100 + bits swd 31 24) * 10
    let u := if s.wdn.swdFirst then s.wdn.unmarked
      else if s.wdn.markerSince then 0 else s.wdn.unmarked + 1
    let s := updWdn s fun w =>
      { w with swdAt := some (s.now + ns), swdFirst := false, unmarked := u, markerSince := false }
    if bits swd 23 20 < u ∧ watchdogRuns s then watchdogExpires s else s
  else { s with flt := { s.flt with swd := s.flt.swdNext } }

/-- A completed-sailing marker reaches the Warden (R16, R518, R538). -/
def wardenMarker (s : State) : State :=
  let s := updWdn s fun w => { w with markerSince := true }
  if (s.mode = .run ∨ s.mode = .degraded) ∧ s.wdn.noHealth = false ∧ s.wdn.held = false then
    updWdn s fun w => { w with healthy := true, pulse := !w.pulse }
  else s

/-! ## The array clock (R60, R252, R544) -/

/-- A monitor reading reported to the fault manager (R545). -/
def monitor (s : State) (inst : Nat) (reading : Word) : State := report s 0x0F inst reading

/-- The thermal cap at a tick: the junction reading is signed, in 0.0625 °C (R544). -/
def thermalTick (s : State) (junction : BitVec 16) : State :=
  let j := junction.toInt
  let s := updWdn s fun w => { w with tempJ := junction }
  if 1680 ≤ j then
    let s := updWdn s fun w => { w with cap := if 4 < w.cap then w.cap - 1 else 4, coolTicks := 0 }
    monitor (alert s 3) 7 (junction.zeroExtend 32)
  else if j < 1600 then
    if s.wdn.coolTicks + 1 = 16 then
      updWdn s fun w => { w with cap := if w.cap < 16 then w.cap + 1 else 16, coolTicks := 0 }
    else updWdn s fun w => { w with coolTicks := w.coolTicks + 1 }
  else updWdn s fun w => { w with coolTicks := 0 }

/-- Whether a change whose target is `tgt` takes effect at the tick that closes sailing c (R252, R253). -/
def targetDue (tgt c : Sail) (asap : Bool) : Bool := asap || inPast tgt c || decide (tgt = c + 1)

/-- The array clock at the tick that closes sailing c: a due request, then min(requested N, CAP); a change
pauses the Helm and the Loader (R60). -/
def aclkTick (s : State) (c : Sail) : State :=
  let s := match s.wdn.aclkPend with
    | some r => if targetDue r.tgt c r.asap then
        updWdn s fun w => { w with aclkReq := r.n, aclkPend := none } else s
    | none => s
  let eff := min s.wdn.aclkReq s.wdn.cap
  if eff = s.wdn.aclkEff then s
  else
    let passed := s.helm.gapBase + s.wdn.aclkEff * (s.now - s.helm.gapAt) / 16
    let s := updWdn s fun w => { w with aclkEff := eff }
    { s with helm := { s.helm with paused := true, pauseEnd := s.now + 3000, gapBase := passed, gapAt := s.now } }

/-- Only the thermal condition applied, and CAP has returned to the requested N (R532). -/
def mayRecover (s : State) : Bool :=
  decide (s.mode = .degraded) && !s.wdn.degradedFor && decide (s.wdn.aclkReq ≤ s.wdn.cap)

/-- RUN and DEGRADED as the Warden judges them at a tick; the change takes effect at the next (R532). -/
def judgeDegraded (s : State) : State :=
  if s.mode = .run ∧ (s.wdn.degradedFor ∨ s.wdn.cap < s.wdn.aclkReq) then order s .degrade
  else if mayRecover s then order s .recover
  else s

/-- The orders due at a tick: the highest is acted on, the rest are discarded (R535). -/
def ordersTick (s : State) : State :=
  let os := s.wdn.orders
  let s := updWdn s fun w => { w with orders := [] }
  match os.find? (fun o => match o with | .sleep _ => true | _ => false) with
  | some (.sleep c) => enterStandby s c
  | _ =>
    if .restart ∈ os then doRestart s
    else if .bench ∈ os ∧ (s.mode = .run ∨ s.mode = .degraded) then
      updWdn (setMode s .bench) fun w => { w with swdAt := none }
    else if .degrade ∈ os ∧ s.mode = .run then setMode s .degraded
    else if .recover ∈ os ∧ mayRecover s then setMode s .run
    else s

/-- SLEEP and RESTART act at once where no tick comes or HEALTHY has fallen for good (R12, R532, R536). -/
def actsAtOnce (s : State) : Bool := !runs s || s.wdn.held || s.wdn.noHealth

/-- Order SLEEP with its cause. -/
def orderSleep (s : State) (cause : BitVec 8) : State :=
  if actsAtOnce s then enterStandby s cause else order s (.sleep cause)

/-- Order RESTART: from RUN, DEGRADED and BENCH alone, the modes that R532 lists for it (DEDUCED, log 131). -/
def orderRestart (s : State) : State :=
  if runs s = false then s else if actsAtOnce s then doRestart s else order s .restart

end Sys2Proof.Machine
end

