-- ==== Sys2Proof/Machine/QueueCore.lean ====
section
/-!
DEFINITION. The queue engine's shared operations: pairs and rings, completions and their signals, events,
drains and errors (09).
-/
namespace Sys2Proof.Machine

/-- A change of the queue engine's state. -/
def updQue (s : State) (f : QueState → QueState) : State := { s with que := f s.que }

/-- The context of a pair. -/
def pairOf (s : State) (qp : Nat) : Pair := storeGet Pair.none s.que.pairs qp

/-- Store the context of a pair. -/
def setPair (s : State) (qp : Nat) (p : Pair) : State :=
  updQue s fun q => { q with pairs := storePut Pair.none q.pairs qp p }

/-- The number of FREE pairs of the pool. -/
def freePairs (s : State) : Nat := 65535 - (s.que.pairs.filter fun p => decide (p.1 ≠ 0)).length

/-- The first number from k on that is no key of a rising list. -/
def firstGap {β : Type} : Nat → List (Nat × β) → Nat
  | k, [] => k
  | k, (a, _) :: t => if a < k then firstGap k t else if a = k then firstGap (k + 1) t else k

/-- The lowest FREE pair of the pool (R297). -/
def lowestFree (s : State) : Option Nat :=
  let n := firstGap 1 s.que.pairs
  if n < 65536 then some n else none

/-- Entries held by a ring (R272). -/
def ringUsed (head tail size : Nat) : Nat := if size = 0 then 0 else (tail + size - head) % size

/-- A CQ slot can be reserved: one that is neither held by an unconsumed entry nor reserved (R279). -/
def cqRoom (p : Pair) : Bool :=
  decide (ringUsed p.cqHead p.cqTail p.cqSize + p.disp.length + 1 < p.cqSize)

/-! ## Fields of a descriptor -/

/-- n bytes at byte lo of a descriptor. -/
def rawField (d : Raw64) (lo n : Nat) : Nat := (d.toNat >>> (8 * lo)) % 2 ^ (8 * n)

/-- OPC (R280). -/
def opcOf (d : Raw64) : Nat := rawField d 0 1
/-- FLAGS.HOLD. -/
def isHold (d : Raw64) : Bool := d.getLsbD 8
/-- FLAGS.WAIT. -/
def isWait (d : Raw64) : Bool := d.getLsbD 9
/-- FLAGS.NOCPL. -/
def isNocpl (d : Raw64) : Bool := d.getLsbD 10
/-- FLAGS.IRQNOW. -/
def isIrqnow (d : Raw64) : Bool := d.getLsbD 11
/-- CID. -/
def cidOf (d : Raw64) : BitVec 16 := BitVec.ofNat 16 (rawField d 2 2)

/-! ## MSI-X (R302, R303) -/

/-- The MSI-X table entry of a vector. -/
def msixOf (s : State) (v : Nat) : MsixEntry := storeGet MsixEntry.none s.que.msix v

/-- Store an MSI-X table entry. -/
def setMsix (s : State) (v : Nat) (e : MsixEntry) : State :=
  updQue s fun q => { q with msix := storePut MsixEntry.none q.msix v e }

/-- Signal a vector: send the message, or set the pending bit while it is masked, or while the function is in
D3hot or the module is held and sends nothing (R21, R301, R303). -/
def signalVector (s : State) (v : Nat) : State :=
  let e := msixOf s v
  if e.masked ∨ s.que.funcMask ∨ s.que.d3 ∨ s.wdn.held then setMsix s v { e with pending := true }
  else emit s (.msix e.addr e.data)

/-- A pair signals its vector, and its count and timer start again. -/
def signalPair (s : State) (qp : Nat) : State :=
  let p := pairOf s qp
  let s := setPair s qp { p with unsig := 0, unsigAt := 0 }
  if p.noirq ∨ s.wdn.held then s else signalVector s p.vector.toNat

/-- A completion has been written: count it, and signal when moderation or its status says so (R302). -/
def moderate (s : State) (qp sc : Nat) (irqnow : Bool) : State :=
  let p := pairOf s qp
  let n := p.unsig + 1
  let s := setPair s qp { p with unsig := n, unsigAt := if p.unsig = 0 then s.now else p.unsigAt }
  if (p.modcnt ≠ 0 ∧ p.modcnt ≤ n) ∨ (p.modcnt = 0 ∧ p.modtime = 0) ∨ (sc ≠ 0 ∧ sc ≠ 0x16) ∨ irqnow then
    signalPair s qp
  else s

/-- At each tick every pair with completions not yet signalled signals (R302). -/
def signalAll (s : State) : State :=
  (s.que.pairs.filter fun p => decide (p.2.unsig ≠ 0)).foldl (fun s p => signalPair s p.1) s

/-! ## Events and errors -/

/-- An asynchronous event waits to be posted, 64 at most (R291). -/
def postEvent (s : State) (code subj : Nat) : State :=
  if getFlag s Reg.queCtl 1 = false then s
  else if 64 ≤ s.que.events.length then setFlag s Reg.queErr 4
  else updQue s fun q => { q with events := q.events ++ [(BitVec.ofNat 8 code, BitVec.ofNat 16 subj)] }

/-- A pair enters ERROR (R299). -/
def pairError (s : State) (qp : Nat) : State :=
  let p := pairOf s qp
  if p.st ≠ .active then s
  else
    postEvent (setPair s qp
      { p with st := .error, fetched := [], disp := p.disp.map fun d => { d with silent := true } }) 1 qp

/-- Drain a pair (R300). -/
def drainPair (s : State) (tell : Bool) (qp : Nat) : State :=
  let p := pairOf s qp
  if p.st = .free then s
  else setPair s qp
    { p with st := .draining, fetched := [], disp := p.disp.map fun d => { d with silent := true },
             tell := p.tell || tell }

/-- Drain every pair of the pool that satisfies a test. -/
def drainPairs (s : State) (tell : Bool) (f : Pair → Bool) : State :=
  (s.que.pairs.filter fun p => decide (p.1 ≠ 0) && f (pairOf s p.1)).foldl (fun s p => drainPair s tell p.1) s

/-! ## Requests to host memory (R266, R274) -/

/-- The parts of n bytes at a that lie between multiples of m: address and length. -/
def chop (a n m : Nat) : List (Nat × Nat) :=
  if n = 0 then []
  else (List.range ((a + n - 1) / m + 1 - a / m)).map fun k =>
    let lo := max a ((a / m + k) * m)
    (lo, min (a + n) ((a / m + k + 1) * m) - lo)

/-- The bytes that one write may carry, and one read may ask for (R266). -/
def maxPayload (s : State) : Nat := 128 * 2 ^ min 2 s.que.link.mps.toNat

/-- The bytes that one read request may ask for (R266). -/
def maxReadRequest (s : State) : Nat := 128 * 2 ^ min 5 s.que.link.mrrs.toNat

/-- A pair's PASID on its host-memory requests, none for pair 0 and HOST clients (R274). -/
def pasidOf (p : Pair) : Option (BitVec 20) := if p.ctype = 1 then some p.client else none

/-- Data writes to host memory: each within Max Payload Size, with the attributes that the host has enabled
(R266). DESIGN CHOICE (log 174): a request ends at the next multiple of that size. -/
def writeHost (s : State) (p : Pair) (a : Nat) (bs : List Byte) (poisoned : Bool) : State :=
  { s with out := s.out ++ (chop a bs.length (maxPayload s)).map (fun (x, n) =>
      .hostWrite (pasidOf p) x ((bs.drop (x - a)).take n) poisoned s.que.link.relax s.que.link.noSnoop) }

/-- What a failed read leaves in the function's AER and status bits (R271). PRESUMED (log 174): the PCIe
specification's records of each. -/
def recordReadError (s : State) (e : ReadError) : State :=
  updQue s fun q =>
    match e with
    | .unsupportedRequest => { q with masterAbort := true }
    | .completerAbort => { q with targetAbort := true }
    | .timeout => { q with aerTimeout := true }
    | .poisoned => { q with aerPoisoned := true }

/-- Read requests to host memory, none above Max Read Request Size, and the record of their failure (R266, R271). -/
def readHost (s : State) (p : Pair) (a n : Nat) (resp : HostRead) : State :=
  let s := { s with out := s.out ++ (chop a n (maxReadRequest s)).map (fun (x, k) =>
      .hostRead (pasidOf p) x k s.que.link.relax s.que.link.noSnoop) }
  match resp with
  | .data _ => s
  | .fail e _ => recordReadError s e

/-! ## Completions -/

/-- The sixteen bytes of a completion entry (R289). -/
def completionBytes (sail : Sail) (cid : BitVec 16) (sqhd sc ustat pass : Nat) (tt phase : Bool)
    (result : Word) : List Byte :=
  bytesOf sail.toNat 6 ++ bytesOf cid.toNat 2 ++ bytesOf sqhd 2 ++ bytesOf sc 1 ++
    bytesOf (ustat % 16 + min pass 3 * 16 + (if tt then 64 else 0) + (if phase then 128 else 0)) 1 ++
    bytesOf result.toNat 4

/-- The queue of a fabric block. -/
def blockQ (s : State) (n : Nat) : QBlock := storeGet QBlock.none s.fab.blocks n

/-- Store the queue of a fabric block. -/
def setBlock (s : State) (n : Nat) (b : QBlock) : State :=
  { s with fab := { s.fab with blocks := storePut QBlock.none s.fab.blocks n b } }

/-- The CQ block of the SQ block n, by its committed FAB_QCFGn.CQBLK. -/
def cqBlockOf (s : State) (n : Nat) : Nat := bits (storeGet 0 s.fab.qcfg n) 22 16

/-- The client node of a NODE pair is told of completions, unless its ID refuses packets (R434, R459). -/
def sendNotice (s : State) (node : BitVec 16) (qp : Nat) : State :=
  if packetsRefused s node then s else sendToward s node (.notice s.fry.node node (BitVec.ofNat 16 qp))

/-- Write an entry at a pair's CQ tail: a posted write to host memory with the client's PASID and Relaxed Ordering
clear (R270), a write to module DRAM that the client's node is told of, or two words into the CQ block (R274, R278,
R459, R477). -/
def writeEntry (s : State) (qp : Nat) (bs : List Byte) : State :=
  let p := pairOf s qp
  let a := p.cqBase.toNat + 16 * p.cqTail
  if p.ctype = 3 then
    let c := cqBlockOf s p.client.toNat
    let b := blockQ s c
    setBlock s c { b with
      words := b.words ++ [(BitVec.ofNat 72 (numOf (bs.take 8)), true), (BitVec.ofNat 72 (numOf (bs.drop 8)), true)],
      owners := b.owners ++ [qp] }
  else if p.ctype = 2 then
    match nocWrite s 11 a bs [] with
    | (s, .ok) => sendNotice s (BitVec.ofNat 16 p.client.toNat) qp
    | (s, _) => pairError s qp
  else emit s (.hostWrite (pasidOf p) (a % 2 ^ 64) bs false false false)

/-- Advance the CQ tail; the phase inverts as it wraps to 0 (R278). -/
def advanceCq (s : State) (qp : Nat) : State :=
  let p := pairOf s qp
  let t := if p.cqTail + 1 = p.cqSize then 0 else p.cqTail + 1
  setPair s qp { p with cqTail := t, phase := if t = 0 then !p.phase else p.phase }

/-- Write a completion of a pair at its CQ tail (R278, R289, R302). -/
def writeCompletion (s : State) (qp : Nat) (sail : Sail) (cid : BitVec 16) (sc ustat pass : Nat) (tt irqnow : Bool)
    (result : Word) : State :=
  let p := pairOf s qp
  let s := writeEntry s qp (completionBytes sail cid p.sqHead sc ustat pass tt p.phase result)
  if (pairOf s qp).st = .error then s else moderate (advanceCq s qp) qp sc irqnow

/-- Replays before the current pass, as PASS shows them (R289). -/
def passCount (s : State) : Nat := min s.ttb.pass 3

/-- A pair's CREATE_QP completion has been written (R297). -/
def openPair (s : State) (qp : Nat) : State :=
  let p := pairOf s qp
  if p.st = .free then s else setPair s qp { p with open_ := true }

/-- The pair that an ADMIN CREATE_QP descriptor made, from its RESULT. -/
def opensPair (d : Raw64) : Bool := decide (opcOf d = 9) && decide (rawField d 4 1 = 2)

/-- An ADMIN SET_IRQ descriptor. -/
def setsIrq (d : Raw64) : Bool := decide (opcOf d = 9) && decide (rawField d 4 1 = 4)

/-- A SET_IRQ's completion has been written: its settings hold for the completions written from here on, and the pair's
count and timer start again (R303). A pair whose own CREATE_QP completion is yet to be written is not the one it named. -/
def applyIrq (s : State) (d : Raw64) : State :=
  let qp := rawField d 16 2
  let v := rawField d 18 2
  let p := pairOf s qp
  if p.st = .free ∨ p.open_ = false then s
  else setPair s qp
    { p with vector := BitVec.ofNat 11 v, noirq := v.testBit 15, modcnt := rawField d 20 2, modtime := rawField d 22 2,
             unsig := 0, unsigAt := 0 }

/-- A dispatched descriptor finishes: its completion is written, unless it is silent, its pair is in ERROR,
the module is held, or NOCPL meets OK; in D3hot it is kept (R278, R279, R299–R301, R21). -/
def complete (s : State) (qp : Nat) (pos : Nat) (sc ustat : Nat) (result : Word) : State :=
  let p := pairOf s qp
  match p.disp.find? (fun d => decide (d.pos = pos)) with
  | none => s
  | some d =>
    let rest := p.disp.filter fun x => decide (x.pos ≠ pos)
    if s.que.d3 ∧ p.ctype ≠ 3 ∧ p.ctype ≠ 2 ∧ d.silent = false then
      updQue (setPair s qp { p with disp := p.disp.map fun x =>
        if x.pos = pos then { x with work := .kept (BitVec.ofNat 8 sc) (BitVec.ofNat 4 ustat) result } else x })
        fun q => { q with kept := q.kept ++ [(qp, pos)] }
    else
      let s := setPair s qp { p with disp := rest }
      if d.silent ∨ p.st = .error ∨ s.wdn.held then s
      else
        let s := if isNocpl d.raw ∧ sc = 0 then s
          else writeCompletion s qp s.ttb.sail (cidOf d.raw) sc ustat (passCount s) false (isIrqnow d.raw) result
        if opensPair d.raw ∧ sc = 0 then openPair s result.toNat
        else if setsIrq d.raw ∧ sc = 0 then applyIrq s d.raw
        else s

/-! ## Dispatch (R279, R292–R294) -/

/-- The descriptor of a pair that may be dispatched now: the oldest fetched one, when its pair is active, the
module is not held, it is released, a CQ slot is free, its WAIT holds and no FENCE of the pair is open. -/
def readyHead (s : State) (qp : Nat) : Option Fetched :=
  let p := pairOf s qp
  match p.fetched with
  | [] => none
  | f :: _ =>
    if p.st = .active ∧ s.hx1 ∧ s.wdn.held = false ∧ f.held = false ∧ cqRoom p ∧
       (isWait f.raw = false ∨ p.disp = []) ∧
       (p.disp.any (fun d => match d.work with | .fence _ _ _ => true | _ => false)) = false
    then some f else none

/-- The oldest fetched descriptor is dispatched and waits for its work. -/
def dispatchHead (s : State) (qp : Nat) (w : Work) : State :=
  let p := pairOf s qp
  match p.fetched with
  | [] => s
  | f :: t => setPair s qp { p with fetched := t, disp := p.disp ++ [⟨f.pos, f.raw, w, false⟩] }

/-- The oldest fetched descriptor is dispatched and finishes at once. -/
def finishHead (s : State) (qp : Nat) (f : Fetched) (sc ustat : Nat) (result : Word) : State :=
  complete (dispatchHead s qp .unit) qp f.pos sc ustat result

/-- Whether an OPC may stand on a pair (R280, R281). -/
def opcAllowed (opc qp : Nat) (ctype : BitVec 2) : Bool :=
  if opc = 5 then decide (qp = 0) || decide (ctype = 0)
  else if opc = 6 then true
  else if opc = 9 then decide (qp = 0)
  else decide (1 ≤ opc) && decide (opc ≤ 8) && decide (qp ≠ 0)

/-- The queue engine serves every descriptor in RUN, DEGRADED and BENCH; in LOAD every other descriptor than
ADMIN completes with NOTRUN (R301). -/
def servesAll (s : State) : Bool := runs s

/-- Run a dispatch of the oldest descriptor of a pair when it carries the OPC, else leave the state. -/
def onHead (s : State) (qp opc : Nat) (f : Fetched → State) : State :=
  match readyHead s qp with
  | none => s
  | some h =>
    if h.bad = false ∧ opcOf h.raw = opc ∧ opcAllowed opc qp (pairOf s qp).ctype then
      if servesAll s ∨ opc = 9 then f h else finishHead s qp h 6 0 0
    else s

end Sys2Proof.Machine
end

