-- ==== Sys2Proof/Machine/FabricCore.lean ====
section
/-!
DEFINITION. The fabric's shared operations: its regions and blocks, and how a region stops (14).
-/
namespace Sys2Proof.Machine

/-- A change of the fabric's state. -/
def updFab (s : State) (f : FabState → FabState) : State := { s with fab := f s.fab }

/-- Store region r. -/
def setRegion (s : State) (r : Nat) (x : Region) : State :=
  updFab s fun f => { f with regions := storePut Region.none f.regions r x }

/-- Some region other than r satisfies a test. -/
def otherRegion (r : Nat) (f : Nat → Bool) : Bool := (List.range 8).any fun q => decide (q ≠ r) && f q

/-- Region r is READY or RUNNING. -/
def regionLive (s : State) (r : Nat) : Bool :=
  decide ((regionOf s r).phase = .ready) || decide ((regionOf s r).phase = .running)

/-- The configuration of a region's cells, routing and pads: frames 0 to 383, as one number. -/
def padFrames (x : Region) : Nat :=
  numOf ((x.frames.filter fun f => decide (f.1 < 384)).flatMap fun f => bytesOf f.2.toNat 1016)

/-- Source code and divider of tree k in a FAB_RCLK value. -/
def treeOf (w : Word) (k : Nat) : Nat := bits w (7 * k + 6) (7 * k)

/-- The committed clock setting of region r (FAB_RCLKr). -/
def rclkOf (s : State) (r : Nat) : Word := storeGet 0 s.fab.rclk r

/-- Region r's committed mode is FREE. -/
def regionFree (s : State) (r : Nat) : Bool := bit (rclkOf s r) 31

/-- Committed FAB_QCFGn. -/
def qcfgOf (s : State) (n : Nat) : Word := storeGet 0 s.fab.qcfg n

/-- Committed mode of block n. -/
def blockMode (s : State) (n : Nat) : Nat := bits (qcfgOf s n) 31 29

/-- The blocks of region r. -/
def regionBlocks (r : Nat) : List Nat := rangeFrom (16 * r) 16

/-- The SQ blocks of region r. -/
def sqBlocks (s : State) (r : Nat) : List Nat := (regionBlocks r).filter fun n => decide (blockMode s n = 4)

/-! ## Stopping a region (R479, R490, R492) -/

/-- The pair of a block is drained and the block unbound (R479). -/
def unbindBlock (s : State) (n : Nat) : State :=
  match (blockQ s n).pair with
  | none => s
  | some q => drainPair (setBlock s n { blockQ s n with pair := none }) true q.toNat

/-- A RUNNING region stops (R490). -/
def stopRegion (s : State) (r : Nat) : State :=
  if regionRuns s r then
    let s := (regionBlocks r).foldl unbindBlock s
    updFab (setRegion s r { regionOf s r with phase := .ready, pinsOn := false })
      fun f => { f with switching := f.switching.filter fun p => decide (p.region ≠ r) }
  else s

/-- The Warden holds the module: every RUNNING region stops when HOLDSAFE is set (R492). -/
def holdStop (s : State) : State :=
  if getFlag s Reg.fabCtl 0 then fabEvent ((List.range 8).foldl stopRegion s) 7 else s

end Sys2Proof.Machine
end

