-- ==== Sys2Proof/Machine/FabricCells.lean ====
section
/-!
DEFINITION. The fabric's cells as a RUNNING region clocks them: nets, carry and multiplexer chains (R467), what crosses
region edges (R491), clock trees (R483, R484), the flip-flops (R466, R489) and the RAM blocks (R489). What a frame's
bits mean is not given (14, Configuration): Config says it.
-/
namespace Sys2Proof.Machine

/-! ## Cells and nets -/

/-- Cells of a column, and of a region. -/
def colCells : Nat := 128
def regionCells : Nat := 16384

/-- A region's configuration of cells, routing and pads as one number. -/
def cellFrames (s : State) (r : Nat) : Nat := padFrames (regionOf s r)

/-- The configuration of the cell at a row of a column of region r. -/
def cellAt (s : State) (r col row : Nat) : Config.Cell := Config.cellOf (cellFrames s r) (colCells * col + row)

/-- The flip-flop of a cell. -/
def flipFlop (s : State) (r col row : Nat) : Bool := (regionOf s r).ffs.getLsbD (colCells * col + row)

/-- Region r takes a signal of region q as it is: its own, or one of a RUNNING region. -/
def signalPasses (s : State) (r q : Nat) : Bool := decide (q = r) || regionRuns s q

/-- The entry of a look-up table that four inputs select, the first the low bit. -/
def lutEntry (lut : BitVec 16) (ins : List Bool) : Bool :=
  lut.getLsbD ((ins.take 4).foldr (fun b n => (if b then 1 else 0) + 2 * n) 0)

/-- The carry out of a column's cells, the lowest first: the chain begins in the column and ends at its top cell, so it
crosses no region edge (R467). -/
def carryChain : List (Config.Cell × List Bool) → Bool → Bool
  | [], c => c
  | (x, ins) :: t, c => carryChain t (Config.carryOut x ins c)

/-- The value of a net as region r sees it: a signal of a region that is not RUNNING reads 0 (R491). Where cells feed
themselves with no flip-flop between, the value is open; `fuel` bounds the cells passed. -/
def netValue (s : State) : Nat → Nat → Config.Net → Bool
  | 0, r, _ => Config.openNet s.now r
  | fuel + 1, r, n =>
    let inputs (q col row : Nat) : List Bool := (cellAt s q col row).inputs.map (netValue s fuel q)
    match n with
    | .constant v => v
    | .outside q i => signalPasses s r q && Config.fabricInput s.now q i
    | .sail k => (regionOf s r).sail.getLsbD k
    | .tick => (regionOf s r).tick
    | .stored q col row => signalPasses s r q && flipFlop s q col row
    | .table q col row => signalPasses s r q && lutEntry (cellAt s q col row).lut (inputs q col row)
    | .carry q col =>
      signalPasses s r q && carryChain ((List.range colCells).map fun row => (cellAt s q col row, inputs q col row)) false
    | .mux q col row wide =>
      let k := if wide then 16 else 4
      signalPasses s r q && decide (row + k ≤ colCells) &&
        Config.muxOut wide ((rangeFrom row k).flatMap fun i => inputs q col i)

/-- Cells that a signal may pass before it meets itself: all of the fabric's. -/
def allCells : Nat := 8 * regionCells

/-- A net as region r sees it. -/
def netOf (s : State) (r : Nat) (n : Config.Net) : Bool := netValue s allCells r n

/-- A net that the configuration may leave out. -/
def netOr (s : State) (r : Nat) (dflt : Bool) (n : Option Config.Net) : Bool :=
  match n with
  | some n => netOf s r n
  | none => dflt

/-! ## Clocks (R483, R484) -/

/-- A clock output of tree k of region r, by its setting, gives an edge in this nanosecond: a rising one, or a
falling one, half a period later. FREF0 and FREF1 give theirs at their frequency, divided, at a phase that is open;
when the other sources do is open; one that is off gives none. -/
def outputEdge (s : State) (r k setting : Nat) (falls : Bool) : Bool :=
  let every (ns : Nat) : Bool :=
    let period := ns * 2 ^ (setting % 8)
    decide ((s.now + Config.clockPhase r k + if falls then period / 2 else 0) % period = 0)
  match setting / 8 with
  | 0 => false
  | 1 => every 2
  | 2 => every 10
  | _ => if falls then Config.openFall s.now r k else Config.openEdge s.now r k

/-- The committed setting of tree k of region r. -/
def treeSetting (s : State) (r k : Nat) : Nat := treeOf (rclkOf s r) k

/-- The change that tree k of region r is in. -/
def switchOf (s : State) (r k : Nat) : Option TreeSwitch :=
  s.fab.switching.find? fun p => decide (p.region = r) && decide (p.tree = k)

/-- Tree k of region r gives an active edge in this nanosecond. One that changes gives its old output's until that falls,
then 0, and resumes on the second rising edge of its new output (R484). -/
def treeEdge (s : State) (r k : Nat) : Bool :=
  match switchOf s r k with
  | none => outputEdge s r k (treeSetting s r k) false
  | some p => match p.held with
    | none => outputEdge s r k p.old false
    | some n => decide (1 ≤ n) && outputEdge s r k (treeSetting s r k) false

/-- Tree k of region r runs: its setting names a source, or its old one does while it changes. -/
def treeRuns (s : State) (r k : Nat) : Bool := (switchOf s r k).isSome || decide (treeSetting s r k / 8 ≠ 0)

/-- Block n has a clock on a side: its tree runs, or in FREE mode a routed net clocks it (R483). -/
def blockClocked (s : State) (n : Nat) (side : Bool) : Bool :=
  let r := n / 16
  (regionFree s r && Config.blockFree (cellFrames s r) (n % 16) side) ||
    treeRuns s r (Config.blockTree (cellFrames s r) (n % 16) side).toNat

/-- Block n meets an active edge on a side: of its tree, or, in FREE mode, of a routed net (R483). -/
def blockEdge (s : State) (n : Nat) (side : Bool) : Bool :=
  let r := n / 16
  if regionFree s r ∧ Config.blockFree (cellFrames s r) (n % 16) side then
    Config.openEdge s.now r (4 + regionCells + 2 * (n % 16) + side.toNat)
  else treeEdge s r (Config.blockTree (cellFrames s r) (n % 16) side).toNat

/-- A cell's flip-flop meets an active edge: of its tree, or, in FREE mode, of a routed net that clocks it, whose timing
the fabric does not guarantee (R483). -/
def cellEdge (s : State) (r i : Nat) (c : Config.Cell) : Bool :=
  if regionFree s r ∧ c.freeClock then Config.openEdge s.now r (4 + i) else treeEdge s r c.tree.toNat

/-! ## Flip-flops (R466) -/

/-- What a flip-flop holds next. An asynchronous set or reset acts at once; a synchronous one at an active edge, whatever
the clock enable; otherwise the data enters at an active edge while the clock enable is 1. -/
def nextBit (async isSet setReset enable data edge old : Bool) : Bool :=
  if setReset && async then isSet
  else if edge = false then old
  else if setReset then isSet
  else if enable then data else old

/-- The flip-flop of cell i of region r after this nanosecond. -/
def cellNext (s : State) (r i : Nat) : Bool :=
  let col := i / colCells
  let row := i % colCells
  let c := cellAt s r col row
  nextBit c.async c.isSet (netOr s r false c.setReset) (netOr s r true c.enable) (netOf s r (c.data r col row))
    (cellEdge s r i c) (flipFlop s r col row)

/-- A bit for every cell of a region. -/
def cellBits (f : Nat → Bool) : BitVec regionCells :=
  BitVec.ofNat regionCells ((List.range regionCells).foldl (fun v i => if f i then v ||| 1 <<< i else v) 0)

/-- The flip-flops with their initial values (R489). -/
def initialBits (s : State) (r : Nat) : BitVec regionCells :=
  cellBits fun i => (cellAt s r (i / colCells) (i % colCells)).init

/-! ## RAM blocks (R489) -/

/-- What RAM block n holds outside the queue modes. -/
def ramOf (s : State) (n : Nat) : BitVec 36864 := storeGet 0 s.fab.ram n

/-- RAM block n takes new contents. -/
def setRam (s : State) (n : Nat) (v : BitVec 36864) : State := updFab s fun f => { f with ram := storePut 0 f.ram n v }

/-- The frames that hold initial contents, as one number. -/
def ramFrames (x : Region) : Nat :=
  numOf ((x.frames.filter fun f => decide (384 ≤ f.1)).flatMap fun f => bytesOf f.2.toNat 1016)

/-- At a GO a RAM block of which a frame has been written since the last takes the contents of its frames; another keeps
what it held (R489). -/
def loadRam (s : State) (n : Nat) : State :=
  let x := regionOf s (n / 16)
  if x.newRam.any (Config.ramFrame (n % 16)) then setRam s n (BitVec.ofNat 36864 (Config.ramInit (ramFrames x) (n % 16)))
  else s

/-- User logic may write a block that it uses as a RAM, at an edge of a clock of the block: what it writes is its own. -/
def useRam (old : State) (s : State) (n : Nat) : State :=
  if blockMode s n = 0 ∧ (blockEdge old n false ∨ blockEdge old n true) then
    setRam s n (BitVec.ofNat 36864 (Config.ramStep s.now n (ramOf s n).toNat))
  else s

/-! ## SAIL and TICK (R468) -/

/-- SAIL and TICK of a region at an edge of the tree on which it stands: a tick reaches it within 3 cycles, and TICK is 1
for one. -/
def sailEdge (s : State) (x : Region) : Region :=
  match x.tickIn with
  | some 0 => { x with sail := s.fab.sail, tick := true, tickIn := none }
  | some (k + 1) => { x with tick := false, tickIn := some k }
  | none => { x with tick := false }

/-- A tick of the module goes out to the trees of the RUNNING regions. -/
def fabricSail (s : State) (n : Sail) : State :=
  let s := updFab s fun f => { f with sail := n }
  (List.range 8).foldl (fun s r =>
    if regionRuns s r then setRegion s r { regionOf s r with tickIn := some (Config.sailDelay s.now % 3) } else s) s

/-! ## A nanosecond of the fabric -/

/-- A nanosecond of a tree that changes; none once it has resumed (R484). A tree whose new source is off stays at 0, so
that its change ends as it comes to 0. -/
def switchTick (s : State) (p : TreeSwitch) : Option TreeSwitch :=
  let new := treeSetting s p.region p.tree
  match p.held with
  | none =>
    if outputEdge s p.region p.tree p.old true then
      (if new / 8 = 0 then none else some { p with held := some 0, since := s.now })
    else if outputEdge s p.region p.tree p.old false then some { p with since := s.now }
    else some p
  | some n =>
    if outputEdge s p.region p.tree new false then (if n = 0 then some { p with held := some 1 } else none) else some p

/-- A nanosecond of the trees that change. -/
def treesTick (s : State) : State := updFab s fun f => { f with switching := f.switching.filterMap (switchTick s) }

/-- One nanosecond of region r, which sees the others as the nanosecond found them. -/
def regionTick (old : State) (s : State) (r : Nat) : State :=
  if regionRuns old r then
    let x := { regionOf s r with ffs := cellBits (cellNext old r) }
    let x := if treeEdge old r (Config.sailTree (cellFrames old r)).toNat then sailEdge old x else x
    (regionBlocks r).foldl (useRam old) (setRegion s r x)
  else s

/-- One nanosecond of the fabric. -/
def fabricTick (s : State) : State := treesTick ((List.range 8).foldl (regionTick s) s)

end Sys2Proof.Machine
end

