-- ==== Sys2Proof/Machine/Clock.lean ====
section
/-!
DEFINITION. The passage of time on an empty queue: one nanosecond, which is one PCLK (DESIGN CHOICE).
-/
namespace Sys2Proof.Machine

/-- The Warden begins to write a changed tag area to flash, where no such write runs (R543). -/
def startTagWrite (s : State) : State :=
  if s.mode ≠ .off ∧ s.wdn.tagDirty ∧ s.wdn.tagBusy.isNone then
    { s with wdn := { s.wdn with tagBusy := some s.wdn.tags } }
  else s

/-- One nanosecond passes. The Pilots' cycle counter counts from the entry to LOAD and stands still while
they are halted (R309), the RUNNING regions of the fabric are clocked (R466, R483), and a changed tag area begins its way
to flash (log 205). -/
def clockTick (s : State) : State :=
  startTagWrite (fabricTick
    { s with now := s.now + 1,
             plt := if s.hx1 ∧ s.plt.halted = false then { s.plt with cyc := s.plt.cyc + 1 } else s.plt })

end Sys2Proof.Machine
end

