-- ==== Sys2Proof/Machine/Ecdsa.lean ====
section
/-!
DEFINITION. The check of an ECDSA signature on the curve P-256, which R540 names and does not repeat (16, Boot flash and
images). The curve and the check are those of FIPS 186-4 (PRESUMED, log 20).
-/
namespace Sys2Proof.Machine

/-- The prime of P-256. -/
def fieldPrime : Nat := 2 ^ 256 - 2 ^ 224 + 2 ^ 192 + 2 ^ 96 - 1

/-- The order of its base point. -/
def curveOrder : Nat := 0xFFFFFFFF00000000FFFFFFFFFFFFFFFFBCE6FAADA7179E84F3B9CAC2FC632551

/-- The constant term of its equation, whose other coefficient is −3. -/
def curveB : Nat := 0x5AC635D8AA3A93E7B3EBBD55769886BC651D06B0CC53B0F63BCE3C3E27D2604B

/-- A point in affine coordinates, none for the point at infinity. -/
abbrev CurvePoint := Option (Nat × Nat)

/-- The base point. -/
def curveBase : CurvePoint :=
  some (0x6B17D1F2E12C4247F8BCE6E563A440F277037D812DEB33A0F4A13945D898C296,
        0x4FE342E2FE1A7F9B8EE7EB4A7C0F9E162BCE33576B315ECECBB6406837BF51F5)

/-- x to the power of the low k bits of e, modulo m. -/
def powMod (x m : Nat) : Nat → Nat → Nat
  | _, 0 => 1 % m
  | e, k + 1 =>
    let r := powMod x m (e / 2) k
    if e % 2 = 1 then r * r % m * x % m else r * r % m

/-- The inverse of x modulo a prime m of 256 bits. -/
def invMod (x m : Nat) : Nat := powMod x m (m - 2) 256

/-- The third point on the line of slope l through a point with first coordinate x1 and y1 and one with x2, mirrored. -/
def chordPoint (l x1 y1 x2 : Nat) : CurvePoint :=
  let p := fieldPrime
  let x := (l * l + 2 * p - x1 - x2) % p
  some (x, (l * ((x1 + p - x) % p) + p - y1) % p)

/-- The sum of two points. -/
def curveAdd : CurvePoint → CurvePoint → CurvePoint
  | none, q => q
  | p, none => p
  | some (x1, y1), some (x2, y2) =>
    let p := fieldPrime
    if x1 ≠ x2 then chordPoint ((y2 + p - y1) * invMod ((x2 + p - x1) % p) p % p) x1 y1 x2
    else if y1 = y2 ∧ y1 ≠ 0 then chordPoint ((3 * x1 * x1 + p - 3) * invMod (2 * y1 % p) p % p) x1 y1 x1
    else none

/-- The multiple of a point by the low k bits of e. -/
def curveMul (q : CurvePoint) : Nat → Nat → CurvePoint
  | _, 0 => none
  | e, k + 1 =>
    let h := curveMul q (e / 2) k
    let d := curveAdd h h
    if e % 2 = 1 then curveAdd d q else d

/-- The point lies on the curve. -/
def onCurve (x y : Nat) : Bool :=
  let p := fieldPrime
  decide (x < p) && decide (y < p) && decide (y * y % p = (x * x * x + (p - 3) * x + curveB) % p)

/-- The signature r, s of a digest verifies under the public key x, y; key and signature are two numbers of 256 bits, the
first one in the upper half (R540). -/
def ecdsaVerify (key digest sig : Nat) : Bool :=
  let x := key / 2 ^ 256
  let y := key % 2 ^ 256
  let r := sig / 2 ^ 256
  let s := sig % 2 ^ 256
  let n := curveOrder
  if r = 0 ∨ n ≤ r ∨ s = 0 ∨ n ≤ s ∨ onCurve x y = false then false
  else
    let w := invMod s n
    match curveAdd (curveMul curveBase (digest * w % n) 256) (curveMul (some (x, y)) (r * w % n) 256) with
    | none => false
    | some (x, _) => decide (x % n = r)

end Sys2Proof.Machine
end

