-- ==== Sys2Proof/Machine/ArrayOps.lean ====
section
/-!
DEFINITION. The array's datapath over whole planes: index planes, neighbour shifts with edge fill, cable
buses, the adder and the boolean unit, and the reductions (02, 04). Bit n of a plane belongs to PE
(n ÷ 1024, n mod 1024), in logical coordinates.
-/
namespace Sys2Proof.Machine

/-- A pattern of `w` bits repeated 2^k times, by doubling. -/
def repeatBits : Nat → Nat → Nat → Nat
  | 0, _, x => x
  | k + 1, w, x => repeatBits k (2 * w) (x ||| x <<< w)

/-- The plane whose bit in the PE of linear index n is bit j of n. -/
def indexPlane (j : Nat) : Plane :=
  BitVec.ofNat peCount (repeatBits (20 - (j + 1)) (2 ^ (j + 1)) ((2 ^ 2 ^ j - 1) <<< 2 ^ j))

/-- COLBITk (R26). -/
def colBit (k : Nat) : Plane := indexPlane k

/-- ROWBITk (R26). -/
def rowBit (k : Nat) : Plane := indexPlane (10 + k)

/-- Every PE. -/
def allPes : Plane := BitVec.allOnes peCount

/-- The PEs of column c. -/
def colMask (c : Nat) : Plane := BitVec.ofNat peCount (repeatBits 10 1024 (1 <<< c))

/-- The PEs of row r. -/
def rowMask (r : Nat) : Plane := BitVec.ofNat peCount ((2 ^ 1024 - 1) <<< (1024 * r))

/-- The PEs of tile row r: 64 PE rows. -/
def tileRowMask (r : Nat) : Plane := BitVec.ofNat peCount ((2 ^ 65536 - 1) <<< (65536 * r))

/-- 1024 bits laid down column c: bit r goes to PE (r, c). -/
def spreadCol (h : BitVec 1024) (c : Nat) : Nat → Nat
  | 0 => 0
  | r + 1 => spreadCol h c r ||| (if h.getLsbD r then 1 <<< (1024 * r + c) else 0)

/-- Column c of a plane as 1024 bits: bit r is the bit of PE (r, c). -/
def gatherCol (p : Plane) (c : Nat) : Nat → Nat
  | 0 => 0
  | r + 1 => gatherCol p c r ||| (if p.getLsbD (1024 * r + c) then 1 <<< r else 0)

/-- Row r of a plane as 1024 bits. -/
def gatherRow (p : Plane) (r : Nat) : BitVec 1024 := BitVec.ofNat 1024 (p.toNat >>> (1024 * r))

/-- The fill along an edge (R124): a constant, the opposite edge, or a halo slot. -/
inductive EdgeFill where
  | zero
  | one
  | wrap
  | halo (slot : BitVec 1024)
  deriving DecidableEq, Repr

/-- XIN of every PE for DIR N: the X of PE (r + 1, c); row 1023 takes the fill (R124). -/
def xinNorth (x : Plane) (f : EdgeFill) : Plane :=
  (x >>> 1024) |||
  match f with
  | .zero => 0
  | .one => rowMask 1023
  | .wrap => x <<< (1023 * 1024)
  | .halo h => BitVec.ofNat peCount (h.toNat <<< (1023 * 1024))

/-- XIN for DIR S: the X of PE (r − 1, c); row 0 takes the fill. -/
def xinSouth (x : Plane) (f : EdgeFill) : Plane :=
  (x <<< 1024) |||
  match f with
  | .zero => 0
  | .one => rowMask 0
  | .wrap => x >>> (1023 * 1024)
  | .halo h => BitVec.ofNat peCount h.toNat

/-- XIN for DIR E: the X of PE (r, c − 1); column 0 takes the fill. -/
def xinEast (x : Plane) (f : EdgeFill) : Plane :=
  ((x <<< 1) &&& ~~~ colMask 0) |||
  match f with
  | .zero => 0
  | .one => colMask 0
  | .wrap => (x >>> 1023) &&& colMask 0
  | .halo h => BitVec.ofNat peCount (spreadCol h 0 1024)

/-- XIN for DIR W: the X of PE (r, c + 1); column 1023 takes the fill. -/
def xinWest (x : Plane) (f : EdgeFill) : Plane :=
  ((x >>> 1) &&& ~~~ colMask 1023) |||
  match f with
  | .zero => 0
  | .one => colMask 1023
  | .wrap => (x <<< 1023) &&& colMask 1023
  | .halo h => BitVec.ofNat peCount (spreadCol h 1023 1024)

/-- XIN for a DIR code (R85): 0 N, 1 E, 2 S, 3 W. Coordinates are logical, so a substitution changes no neighbour
(R53, R127); a wrapped value stays in the module (R125). -/
def xinOf (dir : Nat) (x : Plane) (f : EdgeFill) : Plane :=
  match dir with
  | 0 => xinNorth x f
  | 1 => xinEast x f
  | 2 => xinSouth x f
  | _ => xinWest x f

/-- The OR over the PEs that reach each PE from lower indices: `step` is the distance of neighbours on the
bus, `pass` the PEs that the value of the PE before may enter. After k rounds it covers 2^k PEs. -/
def fillUp : Nat → Nat → Plane → Plane → Plane
  | 0, _, _, v => v
  | k + 1, step, pass, v =>
    fillUp k (2 * step) (pass &&& (pass <<< step)) (v ||| (pass &&& (v <<< step)))

/-- The same from higher indices. -/
def fillDown : Nat → Nat → Plane → Plane → Plane
  | 0, _, _, v => v
  | k + 1, step, pass, v =>
    fillDown k (2 * step) (pass &&& (pass >>> step)) (v ||| (pass &&& (v >>> step)))

/-- ROWBUS in every PE (R129–R131): the OR of `drive` over the PE's segment of its row, cut between
(r, c) and (r, c + 1) where `cut` is set in (r, c). -/
def rowBus (drive cut : Plane) : Plane :=
  let joined := ~~~ cut &&& ~~~ colMask 1023
  fillUp 10 1 (joined <<< 1) drive ||| fillDown 10 1 joined drive

/-- COLBUS in every PE: the same along columns, cut between (r, c) and (r + 1, c). -/
def colBus (drive cut : Plane) : Plane :=
  let joined := ~~~ cut &&& ~~~ rowMask 1023
  fillUp 10 1024 (joined <<< 1024) drive ||| fillDown 10 1024 joined drive

/-- COUT of the adder in every PE: the majority of its three inputs. -/
def majority (p s c : Plane) : Plane := (p &&& s) ||| (p &&& c) ||| (s &&& c)

/-- F of the boolean unit in every PE: TT[4·P + 2·S′ + T]. -/
def booleanUnit (tt : BitVec 8) (p s t : Plane) : Plane :=
  let pick (i : Nat) (v : Plane) : Plane := if tt.getLsbD i then v else 0
  pick 0 (~~~ p &&& ~~~ s &&& ~~~ t) ||| pick 1 (~~~ p &&& ~~~ s &&& t) |||
  pick 2 (~~~ p &&& s &&& ~~~ t) ||| pick 3 (~~~ p &&& s &&& t) |||
  pick 4 (p &&& ~~~ s &&& ~~~ t) ||| pick 5 (p &&& ~~~ s &&& t) |||
  pick 6 (p &&& s &&& ~~~ t) ||| pick 7 (p &&& s &&& t)

/-- The OR over every PE. -/
def anyPe (p : Plane) : Bool := decide (p ≠ 0)

/-- The census of a plane: the number of ones (R138). -/
def census (p : Plane) : Nat := p.cpop.toNat

/-- `new` where `mask` is set, `old` elsewhere: the write merge (R48). -/
def mergePlane (mask new old : Plane) : Plane := (mask &&& new) ||| (~~~ mask &&& old)

end Sys2Proof.Machine
end

