-- ==== Sys2Proof/Machine/TtbCore.lean ====
section
/-!
DEFINITION. The Timetable unit's shared operations: timetable images and their checks, entry states, the end
of an entry and of a pass, the sailing record and marker, abandonment, and the order of a checkpoint (08).
-/
namespace Sys2Proof.Machine

/-- A change of the Timetable unit's state. -/
def updTtb (s : State) (f : TtbState → TtbState) : State := { s with ttb := f s.ttb }

/-- A change of the Loader's state. -/
def updLdr (s : State) (f : LdrState → LdrState) : State := { s with ldr := f s.ldr }

/-- A change of the Helm's state. -/
def updHelm (s : State) (f : HelmState → HelmState) : State := { s with helm := f s.helm }

/-- The Loader counts its wait for slots from here (R219). -/
def freshSlots (s : State) : State := updHelm s fun h => { h with noSlot := NoSlot.zero }

/-! ## Images (R246, R247, R249, R259) -/

/-- n bytes at offset lo of an image. -/
def imgField (img : List Byte) (lo n : Nat) : Nat := numOf ((img.drop lo).take n)

/-- The entry at index i of an image (R247). -/
def parseEntry (img : List Byte) (i : Nat) : Entry :=
  let b := 1024 + 64 * i
  let ty := imgField img b 1
  { type := BitVec.ofNat 4 ty, cpl := ty.testBit 4, ack := ty.testBit 5,
    cqp := BitVec.ofNat 16 (imgField img (b + 2) 2),
    start := imgField img (b + 4) 4 % 2 ^ 20, deadline := imgField img (b + 8) 4 % 2 ^ 20,
    tag := BitVec.ofNat 16 (imgField img (b + 12) 2),
    payload := BitVec.ofNat 256 (imgField img (b + 16) 32),
    deps := (List.range (min (imgField img (b + 1) 1) 8)).map fun k => imgField img (b + 48 + 2 * k) 1 }

/-- NENT of an image. -/
def imgNent (img : List Byte) : Nat := imgField img 6 2

/-- The timetable that an image holds (R246). -/
def parseTimetable (img : List Byte) : Timetable :=
  { period := imgField img 0 4 % 2 ^ 20, policy := BitVec.ofNat 2 (imgField img 4 1),
    cover := BitVec.ofNat 2 (imgField img 5 1), worst := imgField img 8 4 % 2 ^ 20,
    pmask := BitVec.ofNat 4096 (imgField img 512 512),
    entries := (List.range (imgNent img)).map (parseEntry img) }

/-- The planes that PMASK marks; bits 4072–4095 are ignored (R246). -/
def persistentPlanes (t : Timetable) : List Nat := (List.range 4072).filter fun i => t.pmask.getLsbD i

/-- The restore time for P planes at 0.818 TB/s, in µs rounded up (R234, R259): 40 ns and
(P × 131072 + 1024) bytes. -/
def restoreUs (planes : Nat) : Nat :=
  let ps := 40000 * 818 + (planes * 131072 + 1024) * 1000
  (ps + 818 * 1000000 - 1) / (818 * 1000000)

/-- Rc (R259). -/
def repairUs (t : Timetable) : Nat :=
  max (if t.cover.getLsbD 0 then 60 + restoreUs (persistentPlanes t).length else 0)
    (if t.cover.getLsbD 1 then 500 else 0)

/-- The first entry that a test refuses. -/
def firstBad (n : Nat) (f : Nat → Bool) : Option Nat := (List.range n).find? f

/-- The commit checks of R249, in order: the first failing code and entry index, or (0, 0). -/
def checkImage (img : List Byte) : Nat × Nat :=
  let t := parseTimetable img
  let n := imgNent img
  let e (i : Nat) : Entry := parseEntry img i
  if (1 ≤ t.period ∧ t.period ≤ 999) ∨ 1000000 < t.period then (1, 0)
  else if t.policy = 3 then (2, 0)
  else if 256 < n then (3, 0)
  else match firstBad n fun i => decide (6 ≤ (e i).type.toNat) || ((e i).ack && decide ((e i).type ≠ 5)) with
  | some i => (4, i)
  | none =>
    match firstBad n fun i =>
      decide (8 < imgField img (1024 + 64 * i + 1) 1) || (e i).deps.any fun d => decide (i ≤ d) with
    | some i => (5, i)
    | none =>
      match firstBad n fun i =>
        let x := e i
        decide (1000000 < x.start) || decide (1000000 < x.deadline) ||
        (decide (t.period ≠ 0) && (decide (t.period ≤ x.start) || decide (t.period < x.deadline))) ||
        (decide (x.deadline ≠ 0) && decide (x.deadline ≤ x.start)) with
      | some i => (6, i)
      | none =>
        if t.policy = 2 ∧ (t.period = 0 ∨ t.period < 2 * t.worst + repairUs t) then (7, 0) else (0, 0)

/-- The timetable in a slot. -/
def slotOf (s : State) (n : Nat) : Option Timetable := storeGet none s.ttb.slots n

/-- The timetable that governs the next sailing if no switch takes effect. -/
def activeTable (s : State) : Timetable :=
  (s.ttb.staged.orElse fun _ => slotOf s s.ttb.active.toNat).getD Timetable.none

/-- PERIOD of the active timetable, in µs (R238); before the first tick, of the slot that the image names. -/
def activePeriod (s : State) : Nat :=
  ((slotOf s (if s.ttb.ticked then s.ttb.active.toNat else s.wdn.slot0.toNat)).getD Timetable.none).period

/-! ## Entries of the current pass -/

/-- Entry i of the pass. -/
def entryAt (s : State) (i : Nat) : Option Entry := s.ttb.cur.entries[i]?

/-- The state of entry i of the pass; UNUSED beyond NENT. -/
def estAt (s : State) (i : Nat) : EStat :=
  (s.ttb.est[i]?).getD { state := .unused, late := false, ustat := 0, posted := true, doneAt := 0 }

/-- Set the state of entry i. -/
def setEst (s : State) (i : Nat) (e : EStat) : State := updTtb s fun t => { t with est := t.est.set i e }

/-- Set a flag of the sailing whose pass runs, which is the current sailing except under EXTEND. In a module held after
a failed arbitration the running sailing is frozen (R245). -/
def passFlag (s : State) (k : Nat) : State :=
  if s.wdn.held then s
  else updTtb s fun t =>
    { t with passFlags := t.passFlags ||| BitVec.ofNat 9 (1 <<< k),
             flags := if t.passSail = t.sail then t.flags ||| BitVec.ofNat 9 (1 <<< k) else t.flags }

/-- Set a flag of the current sailing, unless it is frozen (R245). -/
def sailFlag (s : State) (k : Nat) : State :=
  if s.wdn.held then s
  else updTtb s fun t =>
    { t with flags := t.flags ||| BitVec.ofNat 9 (1 <<< k),
             passFlags := if t.passSail = t.sail then t.passFlags ||| BitVec.ofNat 9 (1 <<< k) else t.passFlags }

/-- The states in which an entry has ended. -/
def EState.ended (e : EState) : Bool :=
  match e with
  | .done | .failed | .depfail | .abandoned | .unused => true
  | _ => false

/-- The states in which an entry ended without success. -/
def EState.bad (e : EState) : Bool :=
  match e with
  | .failed | .depfail | .abandoned => true
  | _ => false

/-- An entry is finished: it has ended and its completion, if any, is posted (R248). -/
def EStat.finished (e : EStat) : Bool := e.state.ended && e.posted

/-- The status codes of completions of entries (R290). -/
def EState.sc (e : EState) : BitVec 8 :=
  match e with
  | .done => 0x00
  | .depfail => 0x17
  | .abandoned => 0x15
  | _ => 0x07

/-- Entry i ends in a state, with its unit's status; a CPL entry's completion then waits to be posted. -/
def endEntry (s : State) (i : Nat) (st : EState) (ustat : BitVec 4) : State :=
  match entryAt s i with
  | none => s
  | some e =>
    let s := setEst s i { estAt s i with state := st, ustat := ustat, posted := !e.cpl, doneAt := s.now }
    let s := if st.bad ∧ st ≠ .abandoned then passFlag s 2 else s
    if e.cpl then
      updTtb s fun t => { t with outq := t.outq ++ [⟨e.cqp, e.tag, i, st.sc, ustat, none, true⟩] }
    else s

/-- Entries whose dependencies finished without success end with DEPFAIL (R255), a CPL dependency once its completion
has been posted (R248); dependencies name lower indices, so one rising pass over the entries suffices. -/
def spreadFailure (s : State) : Nat → State
  | 0 => s
  | n + 1 =>
    let s := spreadFailure s n
    match entryAt s n with
    | none => s
    | some e =>
      if (estAt s n).state = .pending ∧ e.deps.any (fun d => (estAt s d).state.bad && (estAt s d).posted) then
        endEntry s n .depfail 0
      else s

/-! ## The end of a pass -/

/-- Write TTB_REC0–TTB_REC3 (08), which raises line 0 of the Pilots (R258, R372). -/
def writeRecord (s : State) (sail : Sail) (flags : BitVec 9) (replays : Nat) (durUs : Nat) : State :=
  let s := setReg s Reg.ttbRec (BitVec.ofNat 32 sail.toNat)
  let s := setReg s (Reg.ttbRec + 4) (BitVec.ofNat 32 (sail.toNat / 2 ^ 32))
  let s := setReg s (Reg.ttbRec + 8) (fld (min replays 3) 11 ||| fld flags.toNat 0)
  let s := setReg s (Reg.ttbRec + 12) (BitVec.ofNat 32 (min durUs 0xFFFFF))
  { s with plt := { s.plt with recReq := true } }

/-- Every entry of the pass has finished. -/
def allFinished (s : State) : Bool := s.ttb.est.all EStat.finished

/-- A pass runs. -/
def passRuns (s : State) : Bool :=
  match s.ttb.phase with
  | .checkpoint | .running | .extending | .replay => true
  | _ => false

/-- The end of a pass, when it has come (R258): OVERWORST, the marker to the Warden, the record, the largest
duration, and the release of the inputs (R14–R16). A Warden hold of the Helm keeps entries from being released (R261,
R263) and no pass from ending whose entries have all finished (DEDUCED, log 199). -/
def endPass (s : State) : State :=
  if passRuns s ∧ s.ttb.marked = false ∧ s.ttb.cut = false ∧ s.wdn.held = false ∧ allFinished s ∧ s.ttb.ckDone then
    let us := (s.now - s.ttb.base) / 1000
    let s := if s.ttb.cur.worst * 1000 < s.now - s.ttb.base then passFlag s 6 else s
    let s := updTtb s fun t => { t with marked := true, sentFor := some t.passSail, phase := .closed }
    let s := wardenMarker s
    let s := writeRecord s s.ttb.passSail s.ttb.passFlags s.ttb.pass ((s.now - s.ttb.tickAt) / 1000)
    let s := if getField s Reg.ttbMaxdur 19 0 < us then setField s Reg.ttbMaxdur 19 0 (min us 0xFFFFF) else s
    emit s (.inputsReleased s.ttb.passSail)
  else s

/-- After an entry has ended: dependents, then the end of the pass. -/
def settle (s : State) : State := endPass (spreadFailure s s.ttb.est.length)

/-- Entry i ends, with what follows from it. -/
def finishEntry (s : State) (i : Nat) (st : EState) (ustat : BitVec 4) : State := settle (endEntry s i st ustat)

/-- The Helm or the Loader reports on a timetable entry: success ends it DONE, any other status FAILED (R254,
R255). A report on an entry of an abandoned or cut pass changes no entry, nor does any report in a module held after a
failed arbitration, whose running sailing is frozen (R245). -/
def timetableReport (s : State) (sail : Sail) (pass idx : Nat) (ok : Bool) (ustat : BitVec 4) : State :=
  if sail = s.ttb.passSail ∧ pass = s.ttb.pass ∧ s.ttb.cut = false ∧ s.wdn.held = false ∧
    (estAt s idx).state = .submitted then
    finishEntry s idx (if ok then .done else .failed) ustat
  else s

/-! ## The checkpoint (R233, R235, R257) -/

/-- Base of the checkpoint area. -/
def ckptBase (s : State) : Nat := reg2 s Reg.ldrCkptLo Reg.ldrCkptHi

/-- The checkpoint is ordered from the Loader; an area beyond module DRAM ends it at once, untaken. -/
def orderCheckpoint (s : State) : State :=
  let planes := persistentPlanes s.ttb.cur
  let s := updTtb s fun t => { t with ckWait := false }
  if dramSize < ckptBase s + planes.length * 131072 + 1024 then
    let s := setField (setFlag s Reg.ldrStat 7) Reg.ldrCkptStat 31 31 0
    settle (updTtb s fun t =>
      { t with ckDone := true, phase := if t.phase = .checkpoint then .running else t.phase })
  else
    let s := setField s Reg.ldrCkptStat 31 31 0
    updLdr (freshSlots s) fun l => { l with ckpt := some (planes, s.ttb.sail), ckBase := ckptBase s }

/-! ## Abandonment (R260) -/

/-- Whether a submitter is an entry of the sailing and pass. -/
def Submitter.ofPass (o : Submitter) (sail : Sail) : Bool :=
  match o with
  | .timetable sl _ _ => decide (sl = sail)
  | _ => false

/-- Kernels of a sailing are marked abandoned; each ends at its next landing or at its start. -/
def abandonKernels (h : HelmState) (sail : Sail) : HelmState :=
  let mark (k : KernelReq) : KernelReq := if k.owner.ofPass sail then { k with abandoned := true } else k
  { h with nq := h.nq.map mark, uq := h.uq.map mark,
           run := h.run.map fun c => { c with req := mark c.req },
           preempted := h.preempted.map fun c => { c with req := mark c.req } }

/-- A kernel of an abandoned sailing remains. -/
def abandonedRemain (h : HelmState) : Bool :=
  h.nq.any (·.abandoned) || h.uq.any (·.abandoned) ||
  (match h.run with | some c => c.req.abandoned | none => false) ||
  (match h.preempted with | some c => c.req.abandoned | none => false)

/-- The checkpoint that waits is ordered once no kernel of an abandoned sailing remains, no repair runs and the
clock pause has ended (R258 step 5, R260, R261). -/
def orderWaiting (s : State) : State :=
  if s.ttb.ckWait ∧ abandonedRemain s.helm = false ∧ s.flt.repair = none ∧ s.helm.paused = false then
    orderCheckpoint s
  else s

/-- The CPL completions of the entries of a timetable that ends abandoned, from index i on: every entry whose
completion has not been posted posts ABANDONED, the ended ones too (R248, R260). -/
def abandonedCompletions (past : Option (Sail × Nat × BitVec 9)) :
    List Entry → List EStat → Nat → List TtbCompletion
  | e :: es, x :: xs, i =>
    (if e.cpl ∧ x.posted = false then [⟨e.cqp, e.tag, i, 0x15, 0, past, false⟩] else []) ++
      abandonedCompletions past es xs (i + 1)
  | _, _, _ => []

/-- Completions that wait belong to no running pass any more. -/
def retireCompletions (l : List TtbCompletion) : List TtbCompletion := l.map fun c => { c with live := false }

/-- The running sailing is abandoned: no entry is released any more, unfinished entries end ABANDONED, their
CPL completions follow, its kernels end at their next landing, and its inputs go back (R14, R260, R261). -/
def abandonPass (s : State) : State :=
  let t := s.ttb
  let gone := abandonedCompletions none t.cur.entries t.est 0
  let s := updTtb s fun t =>
    { t with outq := t.outq.filter (!·.live) ++ gone, marked := true, phase := .closed, cut := false,
             est := t.est.map fun x => if x.finished then x else { x with state := .abandoned, posted := true, doneAt := s.now } }
  let s := { s with helm := abandonKernels s.helm t.passSail }
  emit s (.inputsReleased t.passSail)

/-- The pass phase as TTB_STAT shows it: HELD under a Warden hold. -/
def phaseCode (s : State) : Nat :=
  if s.helm.held ∧ s.ttb.ticked then 6
  else match s.ttb.phase with
    | .notick => 0 | .checkpoint => 1 | .running => 2 | .closed => 3 | .extending => 4 | .replay => 5

/-- ESTAT state codes. -/
def EState.code (e : EState) : Nat :=
  match e with
  | .pending | .notifying => 0
  | .submitted | .acking => 1
  | .done => 2 | .failed => 3 | .depfail => 4 | .abandoned => 5 | .unused => 6

/-- A pending switch is replaced or refused: its descriptor completes (R285). -/
def supersede (s : State) : State :=
  match s.ttb.pend with
  | some ⟨_, _, _, some (qp, pos), _⟩ => complete s qp.toNat pos 0x0C 0 0
  | _ => s

/-- The pending switch came from a descriptor in this NCLK, so that it stands over a firmware switch (R251). -/
def bindStands (s : State) (w : Switch) : Bool :=
  match s.ttb.pend with
  | some p => p.bind.isSome && w.bind.isNone && decide (p.since = s.now)
  | none => false

/-- A switch request (R251): refused where the slot is not VALID. -/
def requestSwitch (s : State) (w : Switch) : State × Bool :=
  if (slotOf s w.slot.toNat).isNone then (s, false)
  else if bindStands s w then (s, true)
  else (updTtb (supersede s) fun t => { t with pend := some w }, true)

end Sys2Proof.Machine
end

