-- ==== Sys2Proof/Machine/FerryCore.lean ====
section
/-!
DEFINITION. What the Helm and the Timetable unit ask of the Ferry block: ports and sides, membership of the
epoch (R442–R446), and the halo slots (R448–R452).
-/
namespace Sys2Proof.Machine

/-- Port index of a side (R424). -/
def sideIndex (d : Side) : BitVec 2 :=
  match d with
  | .east => 0
  | .west => 1
  | .north => 2
  | .south => 3

/-- The side that a DIR code names (R85). -/
def dirSide (dir : Nat) : Side :=
  match dir with
  | 0 => .north
  | 1 => .east
  | 2 => .south
  | _ => .west

/-- The side from which XIN arrives for a DIR code (R124). -/
def dirFrom (dir : Nat) : Side :=
  match dir with
  | 0 => .south
  | 1 => .west
  | 2 => .north
  | _ => .east

/-- The ports that lead to some other module (R433). -/
def firstHops (s : State) : List (BitVec 2) := ((s.fry.known.map (·.port)).eraseDups)

/-- FRY_PCTLn. -/
def pctl (s : State) (n : BitVec 2) : Word := reg s (Reg.fryPctl + 0x20 * n.toNat)

/-- The committed FRY_TREE.ROOT is set (R435). -/
def claimsRoot (s : State) : Bool := bit s.fry.tree 31

/-- This module is the root: discovery finds no other root with a lower node ID (R435). -/
def isRoot (s : State) : Bool :=
  claimsRoot s && !(s.fry.known.any fun n => n.root && decide (n.node < s.fry.node))

/-- The root of least node ID among the other modules. -/
def lowestRoot (l : List NodeInfo) : Option NodeInfo :=
  (l.filter (·.root)).foldl (fun b n => match b with
    | some m => if n.node < m.node then some n else b
    | none => some n) none

/-- A message over MGMT leaves toward the root (R447). -/
def sendToRoot (s : State) (m : LinkMsg) : State :=
  match lowestRoot s.fry.known with
  | some r => sendOn s r.port m
  | none => s

/-- The installation sailing this module believes it is in. -/
def instSail (s : State) : Sail := s.ttb.sail + s.fry.sailofs

/-- The module belongs to no installation: it is not the root, took its tick from another source than a tick
message, and knows no other node (R442). -/
def standsAlone (s : State) : Bool :=
  !isRoot s && decide (s.fry.known = []) && decide (s.ttb.srcUsed ≠ 2)

/-- The module is a member of the current sailing. -/
def isMember (s : State) : Bool :=
  runs s && s.ttb.ticked && !s.fry.out && !s.wdn.held && !standsAlone s

/-- Nodes that the latest verdict excludes. -/
def excludedNodes (s : State) : List (BitVec 16) :=
  match s.fry.verdict with
  | some (_, l) => l
  | none => []

/-- Nodes that the verdict of a sailing excludes; where the one in force is of another sailing and none is kept, those of
the one in force. -/
def excludedIn (s : State) (sail : Sail) : List (BitVec 16) :=
  match s.fry.past.find? fun v => decide (v.1 = sail) with
  | some v => v.2
  | none => excludedNodes s

/-- A neighbour that came up in LOAD, on which no later sailing's verdict has spoken: it is no member (R462;
DEDUCED, log 207). -/
def neighbourInLoad (s : State) (node : BitVec 16) : Bool :=
  allPorts.any fun p => (portAt s p).inLoad.isSome && decide ((portAt s p).farNode = node)

/-- Nodes other than this one that are members of a sailing, as far as the verdicts say (R445, R456, R462). -/
def otherMembers (s : State) (sail : Sail) : List (BitVec 16) :=
  (s.fry.known.map (·.node)).filter fun n => decide (n ∉ excludedIn s sail) && !neighbourInLoad s n

/-- EDGE traffic flows across a side: the port is UP, this module is a member outside a replay pass, and the
neighbour is not excluded and did not come up in LOAD (R446, R452, R454, R462). -/
def edgeOpen (s : State) (d : Side) : Bool :=
  let n := sideIndex d
  isMember s && decide (s.ttb.pass = 0) && bit (pctl s n) 31 && decide ((portAt s n).phase = .up) &&
    decide ((portAt s n).farNode ∉ excludedNodes s) && (portAt s n).inLoad.isNone

/-- Key of a halo slot. -/
def haloKey (d : Side) (slot : Nat) : Nat := (sideIndex d).toNat * 64 + slot

/-- A halo slot's bits (R126). -/
def haloSlot (s : State) (d : Side) (slot : Nat) : BitVec 1024 := storeGet 0 s.fry.slots (haloKey d slot)

/-- The keys of `count` slots of a side. -/
def haloKeys (d : Side) (first count : Nat) : List Nat := rangeFrom (haloKey d first) count

/-- Slots that are not fresh take the port's FILL (R451). -/
def haloFill (s : State) (d : Side) (keys : List Nat) : State :=
  let fill := bits (pctl s (sideIndex d)) 7 6
  if fill = 2 then s
  else
    let v : BitVec 1024 := if fill = 1 then BitVec.allOnes 1024 else 0
    updFry s fun f => { f with slots := keys.foldl (fun l k => storePut 0 l k v) f.slots }

/-- A HALOW completes on its slots: fresh bits clear and E advances (R450). -/
def haloTake (s : State) (keys : List Nat) : State :=
  updFry s fun f =>
    { f with fresh := f.fresh.filter (fun k => decide (k ∉ keys)),
             waits := keys.foldl (fun l k => storePut 0 l k (storeGet 0 l k + 1)) f.waits }

/-- Edge row or column of a plane that HALOX sends toward a side (R448). -/
def edgeOf (p : Plane) (d : Side) : BitVec 1024 :=
  match d with
  | .north => gatherRow p 0
  | .south => gatherRow p 1023
  | .east => BitVec.ofNat 1024 (gatherCol p 1023 1024)
  | .west => BitVec.ofNat 1024 (gatherCol p 0 1024)

/-- One plane of a HALOX: it counts as a post of its slot, and is sent with its sailing and sequence, or discarded and
counted in DROP (R448, R452). -/
def haloPost (s : State) (d : Side) (slot : Nat) (p : Plane) : State :=
  let k := haloKey d slot
  let n := storeGet 0 s.fry.posts k
  let s := updFry s fun f => { f with posts := storePut 0 f.posts k (n + 1) }
  if edgeOpen s d then sendOn s (sideIndex d) (.halo d slot (instSail s) n (edgeOf p d))
  else countField s Reg.fryHalocnt 7 0 1

/-- The sailing whose pass runs is flagged PARTIAL (bit 7 of the flags). -/
def flagPartial (s : State) : State := sailFlag s 7

end Sys2Proof.Machine
end

