-- ==== Sys2Proof/Machine/Flags.lean ====
section
/-!
DEFINITION. Error flags of the units that several meanings set: HLM_STAT (03) and LDR_STAT (07).
-/
namespace Sys2Proof.Machine

/-- HLM_STAT.PARITY (R117). -/
def hPARITY : Word := 0x800
/-- HLM_STAT.LANDLATE (R111). -/
def hLANDLATE : Word := 0x400
/-- HLM_STAT.STKERR (R80). -/
def hSTKERR : Word := 0x200
/-- HLM_STAT.ILLSEQ (R78). -/
def hILLSEQ : Word := 0x100
/-- HLM_STAT.RANGE (R74, R76). -/
def hRANGE : Word := 0x080
/-- HLM_STAT.BADDESC (R95, R98). -/
def hBADDESC : Word := 0x040
/-- HLM_STAT.BADVAR (R75, R82, R95). -/
def hBADVAR : Word := 0x020
/-- HLM_STAT.BADCODE (R27, R29, R81, R86–R92, R94). -/
def hBADCODE : Word := 0x010
/-- HLM_STAT.CONFLICT (R65). -/
def hCONFLICT : Word := 0x008

/-- A flag of HLM_STAT when a condition holds. -/
def hIf (b : Bool) (m : Word) : Word := if b then m else 0

/-- Set flags of HLM_STAT. -/
def helmErr (s : State) (m : Word) : State := setReg s Reg.hlmStat (reg s Reg.hlmStat ||| m)

/-- Count conflict kinds of one microword, and set CONFLICT (R69). -/
def helmConflicts (s : State) (kinds : Nat) : State :=
  if kinds = 0 then s else countField (helmErr s hCONFLICT) Reg.hlmConflict 31 0 kinds

/-- The bit of LDR_STAT that a transfer status sets (R216, R230); OK and ABORTED set none. -/
def ldrStatBit (status : Nat) : Option Nat :=
  match status with
  | 1 => some 2
  | 2 => some 3
  | 3 => some 4
  | 4 => some 5
  | 5 => some 6
  | 7 => some 8
  | _ => none

/-- Set the LDR_STAT bit of a status. -/
def ldrErr (s : State) (status : Nat) : State :=
  match ldrStatBit status with
  | some k => setFlag s Reg.ldrStat k
  | none => s

end Sys2Proof.Machine
end

