-- ==== Sys2Proof/Machine/Microword.lean ====
section
/-!
DEFINITION. The 192-bit microword and its fields (R71, R72), the descriptor entry (R97, R98) and the kernel
argument block (R102).
-/
namespace Sys2Proof.Machine

/-- Bits [hi:lo] of a microword. -/
def mwBits (w : BitVec 192) (hi lo : Nat) : Nat := (w.toNat >>> lo) % 2 ^ (hi + 1 - lo)

/-- A plane port: MODE, IDX and ADDR (R72). -/
structure MPort where
  mode : Nat
  idx  : Nat
  addr : Nat
  deriving DecidableEq, Repr

/-- A plane port from its 20 bits. -/
def MPort.of (v : Nat) : MPort := { mode := v % 4, idx := v / 4 % 4, addr := v / 16 }

/-- A port that names no variable and delivers 0. -/
def MPort.off : MPort := { mode := 2, idx := 0, addr := 0 }

/-- The port names a variable (MODE 0b01 or 0b11). -/
def MPort.isVar (p : MPort) : Bool := decide (p.mode = 1) || decide (p.mode = 3)

/-- The fields of a microword (R71). -/
structure Micro where
  rscope  : Bool
  yld     : Bool
  spec    : Nat
  flag    : Nat
  probe   : Nat
  rslot   : Nat
  red     : Nat
  cbus    : Nat
  rbus    : Nat
  halosel : Nat
  edge    : Nat
  dir     : Nat
  mgate   : Bool
  ldm     : Nat
  ldq     : Nat
  ldx     : Nat
  ldd     : Nat
  ldc     : Nat
  ysel    : Nat
  cin     : Nat
  tsel    : Nat
  sinv    : Bool
  ssel    : Nat
  tt      : BitVec 8
  pw      : MPort
  pb      : MPort
  pa      : MPort
  landing : Bool
  clen    : Nat
  imm     : Nat
  lcld    : Nat
  target  : BitVec 15
  cond    : Nat
  seq     : Nat
  deriving DecidableEq, Repr

/-- The fields of a microword; `clen` is the length in ACLK. -/
def Micro.of (w : BitVec 192) : Micro :=
  { rscope := w.getLsbD 167, yld := w.getLsbD 166, spec := mwBits w 165 162, flag := mwBits w 161 159,
    probe := mwBits w 158 157, rslot := mwBits w 156 153, red := mwBits w 152 150, cbus := mwBits w 149 148,
    rbus := mwBits w 147 146, halosel := mwBits w 145 140, edge := mwBits w 139 138, dir := mwBits w 137 136,
    mgate := w.getLsbD 135, ldm := mwBits w 134 133, ldq := mwBits w 132 131, ldx := mwBits w 130 129,
    ldd := mwBits w 128 127, ldc := mwBits w 126 125, ysel := mwBits w 124 123, cin := mwBits w 122 121,
    tsel := mwBits w 120 119, sinv := w.getLsbD 118, ssel := mwBits w 117 115,
    tt := BitVec.ofNat 8 (mwBits w 114 107), pw := MPort.of (mwBits w 106 87),
    pb := MPort.of (mwBits w 86 67), pa := MPort.of (mwBits w 66 47), landing := w.getLsbD 46,
    clen := mwBits w 45 43 + 1, imm := mwBits w 42 27, lcld := mwBits w 26 23,
    target := BitVec.ofNat 15 (mwBits w 22 8), cond := mwBits w 7 4, seq := mwBits w 3 0 }

/-- Count of a HALOX or HALOW, or the width of a WIDTH_SET: IMM[6:0]. -/
def Micro.count (m : Micro) : Nat := m.imm % 128

/-- The count of a HALOX or HALOW lets it act (R94). -/
def Micro.haloOk (m : Micro) : Bool :=
  decide (0 < m.count) && decide (m.count ≤ 64) && decide (m.halosel + m.count ≤ 64)

/-! ## Descriptors (R97) -/

/-- VALID. -/
def descValid (d : Word) : Bool := bit d 31
/-- SIGNED. -/
def descSigned (d : Word) : Bool := bit d 30
/-- LWIDTH. -/
def descLw (d : Word) : Nat := bits d 29 23
/-- DWIDTH. -/
def descDw (d : Word) : Nat := bits d 22 16
/-- BASE. -/
def descBase (d : Word) : Nat := bits d 11 0

/-- The entry with another live width. -/
def descWithLw (d : Word) (w : Nat) : Word := setBits d 29 23 w

/-- A valid entry has one of the faults of R98. -/
def descBad (d : Word) : Bool :=
  descValid d &&
  (decide (descDw d = 0) || decide (64 < descDw d) || decide (descDw d < descLw d) ||
   (decide (descLw d = 0) && descSigned d) || decide (4096 < descBase d + descDw d))

/-- Reserved bits of an entry read 0. -/
def descMask : Word := 0xFFFF0FFF

/-! ## Kernel argument blocks (R102) -/

/-- The kernel that an argument block of 32 bytes submits. -/
def kernelOfBlock (b : Block32) (owner : Submitter) : KernelReq :=
  { entry := BitVec.ofNat 15 (blkField b 0 2), kid := BitVec.ofNat 16 (blkField b 2 2),
    dbase := BitVec.ofNat 10 (blkField b 4 2), trap := BitVec.ofNat 6 (blkField b 6 1),
    rmode := BitVec.ofNat 2 (blkField b 6 1 / 64), urgent := (blkField b 7 1).testBit 0,
    args := (List.range 6).map fun i => BitVec.ofNat 32 (blkField b (8 + 4 * i) 4),
    owner := owner, abandoned := false }

end Sys2Proof.Machine
end

