-- ==== Sys2Proof/Machine/PlaneMem.lean ====
section
/-!
DEFINITION. Plane memory behind its tile maps and its SEC-DED words (02): which physical tile a logical tile
is, which rows are lost, and reads and writes of whole planes with the events they raise.
-/
namespace Sys2Proof.Machine

/-- A change of the array's state. -/
def updArr (s : State) (f : ArrayState → ArrayState) : State := { s with arr := f s.arr }

/-- HLM_TMAPn. -/
def tmap (s : State) (n : Nat) : Word := reg s (Reg.hlmTmap + 4 * n)

/-- HLM_TMAPn.LOST (R57). -/
def rowLost (s : State) (n : Nat) : Bool := bit (tmap s n) 8

/-- HLM_TMAPn.BYP. -/
def rowByp (s : State) (n : Nat) : Nat := bits (tmap s n) 4 0

/-- The PEs of lost tile rows. -/
def lostPes (s : State) : Plane :=
  (List.range 16).foldl (fun p n => if rowLost s n then p ||| tileRowMask n else p) 0

/-- The PEs that take part: all but those of lost tile rows (R57). -/
def livePes (s : State) : Plane := ~~~ lostPes s

/-- Logical tile column of physical column p in a row whose BYP is k; none: unmapped (R52, R54). -/
def logicalCol (k p : Nat) : Option Nat :=
  if p < k ∧ p < 16 then some p
  else if k < p ∧ p ≤ 16 ∧ k ≤ 16 then some (p - 1)
  else none

/-- Key of a physical word. -/
def wordKey (trow pcol row plane : Nat) : Nat := ((trow * 17 + pcol) * 64 + row) * 4096 + plane

/-- Physical tile number (trow × 17 + tcol) of a word. -/
def keyTile (k : Nat) : Nat := k / 4096 / 64

/-- PE row within the tile. -/
def keyRow (k : Nat) : Nat := k / 4096 % 64

/-- Plane of a word. -/
def keyPlane (k : Nat) : Nat := k % 4096

/-- Linear index of the first PE of a mapped word in a row that is not lost (R52, R57). -/
def wordStart (s : State) (k : Nat) : Option Nat :=
  let trow := keyTile k / 17
  if rowLost s trow then none
  else (logicalCol (rowByp s trow) (keyTile k % 17)).map fun lc => (trow * 64 + keyRow k) * 1024 + lc * 64

/-- An ECC event of plane memory (R50, R501). -/
def peccEvent (s : State) (k : Nat) (d : Damage) (merge : Bool) : State :=
  report s (match d with | .single => 0x00 | .uncorrectable => 0x01) (keyTile k)
    (flg merge 31 ||| fld (keyPlane k) 16 ||| fld (keyRow k) 0)

/-- The stored bits of a plane. -/
def planeBits (s : State) (plane : Nat) : Plane := storeGet 0 s.arr.planes plane

/-- The 64 bits of a plane from a linear index. -/
def wordBits (p : Plane) (start : Nat) : BitVec 64 := p.extractLsb' start 64

/-- The damaged words of a plane that are mapped and hold a PE of `scope`. -/
def damagedWords (s : State) (plane : Nat) (scope : Plane) : List (Nat × Damage) :=
  s.arr.damage.filter fun p =>
    decide (keyPlane p.1 = plane) &&
    (match wordStart s p.1 with | some i => decide (wordBits scope i ≠ 0) | none => false)

/-- A read of the words of a plane that hold a PE of `scope`: the bits delivered, and the events;
nothing is written back (R46, R47, R57). -/
def planeReadIn (s : State) (plane : Nat) (scope : Plane) : State × Plane :=
  ((damagedWords s plane scope).foldl (fun s p => peccEvent s p.1 p.2 false) s, planeBits s plane &&& livePes s)

/-- A read of a whole plane by a microword. -/
def planeRead (s : State) (plane : Nat) : State × Plane := planeReadIn s plane allPes

/-- What a write does to a damaged word, by the bits of its write mask (R48, R49): fresh check bits, or the
word left as it stands or written with inverted check bits. -/
def damageAfter (d : Damage) (mask : BitVec 64) : Option Damage :=
  if mask = 0 then some d
  else match d with
    | .single => none
    | .uncorrectable => if mask = BitVec.allOnes 64 then none else some .uncorrectable

/-- A plane write through the write merge to the words that hold a PE of `scope`: `mask` marks the PEs that
store (R48, R49, R57). It answers the plane as it then stands. -/
def planeWriteIn (s : State) (plane : Nat) (new mask scope : Plane) : State × Plane :=
  let mask := mask &&& livePes s
  let s1 := (damagedWords s plane scope).foldl (fun s p => peccEvent s p.1 p.2 true) s
  let dmg := s.arr.damage.filterMap fun p =>
    if keyPlane p.1 = plane then
      match wordStart s p.1 with
      | none => some p
      | some i => (damageAfter p.2 (wordBits mask i)).map fun d => (p.1, d)
    else some p
  let v := mergePlane mask new (planeBits s plane)
  (updArr s1 fun a => { a with planes := storePut 0 a.planes plane v, damage := dmg }, v &&& livePes s)

/-- A plane write by a microword, which checks every word of the plane; no plane is guarded (R51). -/
def planeWrite (s : State) (plane : Nat) (new mask : Plane) : State × Plane := planeWriteIn s plane new mask allPes

/-- A plane's bits in the PEs of `scope` become unspecified: free values, with no access made. A lost row's memory
stands as it is (R57). -/
def spoilPlane (s : State) (plane : Nat) (scope : Plane) : State :=
  updArr (usedFree s) fun a =>
    { a with planes := storePut 0 a.planes plane (mergePlane (scope &&& livePes s) (freePlane s) (storeGet 0 a.planes plane)) }

/-- Latches take new values; those of lost rows stay at 0 (R57). -/
def setLatches (s : State) (c d x m q : Plane) : State :=
  let l := livePes s
  updArr s fun a => { a with c := c &&& l, d := d &&& l, x := x &&& l, m := m &&& l, q := q &&& l }

/-- The latches of the rows that are lost now go to 0 (R57). -/
def holdLostRows (s : State) : State := setLatches s s.arr.c s.arr.d s.arr.x s.arr.m s.arr.q

end Sys2Proof.Machine
end

