-- ==== Sys2Proof/Machine/Operands.lean ====
section
/-!
DEFINITION. The operands of a microword: plane ports resolved through the descriptor table (R72–R77), virtual
sources (R26–R28), and loop-counter loads (R82).
-/
namespace Sys2Proof.Machine

/-- Descriptor n. -/
def descAt (s : State) (n : Nat) : Word := storeGet 0 s.helm.desc n

/-- Store descriptor n, its reserved bits 0. -/
def setDesc (s : State) (n : Nat) (d : Word) : State :=
  { s with helm := { s.helm with desc := storePut 0 s.helm.desc n (d &&& descMask) } }

/-- A write that would leave a faulty valid entry leaves the whole entry unchanged and sets BADDESC (R98). -/
def writeDesc (s : State) (n : Nat) (d : Word) : State := if descBad d then helmErr s hBADDESC else setDesc s n d

/-- The index that IDX adds (R73). -/
def portIndex (k : KernelCtx) (idx : Nat) : Nat :=
  match idx with
  | 0 => 0
  | 1 => k.i0.toNat
  | 2 => k.i1.toNat
  | _ => k.i0.toNat + k.i1.toNat

/-- Table index that a variable port names: ADDR[15:6] + DBASE. -/
def portSlot (k : KernelCtx) (p : MPort) : Nat := p.addr / 64 + k.req.dbase.toNat

/-- The valid descriptor that a port names, with its index (R75). -/
def portDesc (s : State) (k : KernelCtx) (p : MPort) : Option (Nat × Word) :=
  let n := portSlot k p
  if p.isVar ∧ n ≤ 1023 ∧ descValid (descAt s n) then some (n, descAt s n) else none

/-- A virtual source: its value in every PE, and whether its code is defined (R26, R27). -/
def virtualSource (gor : Bool) (code : Nat) : Option Plane :=
  if code = 0 then some 0
  else if code = 1 then some allPes
  else if code = 2 then some (if gor then allPes else 0)
  else if 0x10 ≤ code ∧ code ≤ 0x19 then some (rowBit (code - 0x10))
  else if 0x20 ≤ code ∧ code ≤ 0x29 then some (colBit (code - 0x20))
  else none

/-- What a read port resolves to: a plane to read, or a value delivered without an access. -/
inductive Source where
  | value (v : Plane)
  | plane (n : Nat)
  deriving DecidableEq, Repr

/-- The plane a source reads. -/
def Source.plane? (r : Source) : Option Nat :=
  match r with
  | .plane n => some n
  | .value _ => none

/-- The extension of a variable above its live width (R77). -/
def extension (d : Word) : Source :=
  if descSigned d ∧ 0 < descLw d then .plane (descBase d + descLw d - 1) else .value 0

/-- A read port, `extra` planes further on (R72–R77): its source and the flags it sets. A port of MODE 0b11
resolves as 0b01 and takes no read, so that an offset at or above the declared width sets RANGE (DEDUCED: R72, R76;
log 155). -/
def readPort (s : State) (k : KernelCtx) (p : MPort) (extra : Nat) : Source × Word :=
  match p.mode with
  | 0 =>
    let a := p.addr % 4096 + portIndex k p.idx + extra
    if 4095 < a then (.value 0, hRANGE) else (.plane a, 0)
  | 1 =>
    match portDesc s k p with
    | none => (.value 0, hBADVAR)
    | some (_, d) =>
      let off := p.addr % 64 + portIndex k p.idx + extra
      if descDw d ≤ off then (extension d, hRANGE)
      else if descLw d ≤ off then (extension d, 0)
      else (.plane (descBase d + off), 0)
  | 2 =>
    match virtualSource k.gor (p.addr % 64) with
    | some v => (.value v, 0)
    | none => (.value 0, hBADCODE)
  | _ =>
    match portDesc s k p with
    | none => (.value 0, hBADVAR)
    | some (_, d) => (.value 0, hIf (decide (descDw d ≤ p.addr % 64 + portIndex k p.idx + extra)) hRANGE)

/-- What the write port resolves to: the plane written, the variable it names with the offset, and flags. -/
structure Target where
  plane : Option Nat
  var   : Option (Nat × Nat)
  err   : Word
  deriving DecidableEq, Repr

/-- A write port that writes nothing. -/
def Target.none : Target := { plane := Option.none, var := Option.none, err := 0 }

/-- The write port (R70, R72–R77). -/
def writePort (s : State) (k : KernelCtx) (p : MPort) : Target :=
  match p.mode with
  | 0 =>
    let a := p.addr % 4096 + portIndex k p.idx
    if 4095 < a then { Target.none with err := hRANGE } else { Target.none with plane := some a }
  | 2 => Target.none
  | mode =>
    match portDesc s k p with
    | none => { Target.none with err := hBADVAR }
    | some (n, d) =>
      let off := p.addr % 64 + portIndex k p.idx
      if descDw d ≤ off then { Target.none with var := some (n, off), err := hRANGE }
      else if mode = 3 then { Target.none with var := some (n, off) }
      else { plane := some (descBase d + off), var := some (n, off), err := 0 }

/-- The value that LCLD loads, and the flags it sets (R82). -/
def loopLoad (s : State) (k : KernelCtx) (m : Micro) : Nat × Word :=
  let lw (p : MPort) : Nat × Word :=
    match portDesc s k p with
    | some (_, d) => (descLw d, 0)
    | none => (0, hBADVAR)
  match m.lcld % 8 with
  | 1 => (m.imm, 0)
  | 2 => if 6 ≤ m.imm % 8 then (0, hBADCODE) else (((k.req.args.getD (m.imm % 8) 0).toNat) % 65536, 0)
  | 3 => lw m.pa
  | 4 => lw m.pb
  | 5 =>
    match portDesc s k m.pa, portDesc s k m.pb, portDesc s k m.pw with
    | some (_, a), some (_, b), some (_, w) => (min (descDw w) (max (descLw a) (descLw b) + 1), 0)
    | _, _, _ => (0, hBADVAR)
  | 6 =>
    match portDesc s k m.pw with
    | some (_, d) => (descDw d, 0)
    | none => (0, hBADVAR)
  | 7 => (min ((k.slots[m.imm % 16]'(Nat.mod_lt _ (by decide))).toNat) 65535, 0)
  | _ => (0, 0)

end Sys2Proof.Machine
end

