-- ==== Sys2Proof/Machine/HelmCore.lean ====
section
/-!
DEFINITION. The Helm's shared operations: when a microword may issue, its effect on every PE, sequencing, the
width probe, reductions, kernel ends, and the barrier (03, 04, 05, 06).
-/
namespace Sys2Proof.Machine

/-- Store the running kernel's context. -/
def setRun (s : State) (k : KernelCtx) : State := updHelm s fun h => { h with run := some k }

/-- User reductions, probe results and width commits are outstanding (R64, R109). -/
def outstanding (h : HelmState) : Bool :=
  !h.red.isEmpty || !h.probes.isEmpty || !h.commits.isEmpty

/-- The same, without installation-scope reductions (R112, R117). -/
def outstandingHere (h : HelmState) : Bool :=
  h.red.any (fun r => r.inst.isNone) || !h.probes.isEmpty || !h.commits.isEmpty

/-- Results of outstanding installation-scope reductions are discarded (R112, R117). -/
def discardInstallation (h : HelmState) : HelmState :=
  { h with red := h.red.filter fun r => r.inst.isNone }

/-- The debugger has the Helm halted, and no microword of a STEP is on its way. -/
def debugHolds (h : HelmState) : Bool := h.dbgHalt && !h.dbgStep

/-- A Warden hold is requested: a Helm that the debugger has halted is held at once (R112). -/
def askHold (h : HelmState) : HelmState :=
  if h.held then h
  else if debugHolds h then { h with held := true, holdReq := false }
  else { h with holdReq := true }

/-- The fault stop is ordered and the Helm has not stopped; a held module repairs nothing (R527). -/
def stopOrdered (s : State) : Option Repair :=
  match s.flt.repair with
  | some r => if r.step = .stopping ∧ s.wdn.held = false then some r else none
  | none => none

/-! ## Stalls (R64, R227) -/

/-- A transfer block names a variable (ABS clear), moves something, and targets descriptor d. -/
def blockHolds (b : Block32) (d : Nat) : Bool :=
  !(blkField b 9 1).testBit 5 && decide (blkField b 10 2 % 1024 = d) &&
  decide (0 < blkField b 24 2 % 2048) && decide (0 < blkField b 26 2 % 2048)

/-- An accepted variable load of descriptor d has not committed. -/
def loadHolds (s : State) (d : Nat) : Bool :=
  (s.ldr.queue.any fun t => t.load && blockHolds t.blk d) ||
  (match s.ldr.run with | some r => r.tr.load && blockHolds r.tr.blk d | none => false)

/-- An accepted variable store of descriptor d has not made its last plane read: it is queued, or waits for its plane
accesses. -/
def storeHolds (s : State) (d : Nat) : Bool :=
  (s.ldr.queue.any fun t => !t.load && blockHolds t.blk d) ||
  (match s.ldr.run with | some r => r.waits && !r.tr.load && blockHolds r.tr.blk d | none => false)

/-- A width commit of descriptor d is pending. -/
def commitPends (s : State) (d : Nat) : Bool := s.helm.commits.any fun t => decide (t.desc = d)

/-- A port resolves through a descriptor that is held. -/
def portHeld (s : State) (k : KernelCtx) (isWrite : Bool) (p : MPort) : Bool :=
  p.isVar && decide (portSlot k p ≤ 1023) &&
  (commitPends s (portSlot k p) || loadHolds s (portSlot k p) || (isWrite && storeHolds s (portSlot k p)))

/-- The microword waits for a global OR (R64, R141). -/
def gorWait (s : State) (m : Micro) : Bool :=
  (decide (m.cond = 1) || decide (m.cond = 2)) && s.helm.red.any (fun r => r.slot.isNone)

/-- The microword is held by a stall of R64 other than the halo wait and the Loader share. -/
def stalled (s : State) (k : KernelCtx) (m : Micro) : Bool :=
  gorWait s m ||
  (decide (m.lcld % 8 = 7) &&
    s.helm.red.any (fun r => decide (r.slot = some (BitVec.ofNat 4 m.imm)))) ||
  portHeld s k false m.pa || portHeld s k false m.pb || portHeld s k true m.pw ||
  (decide (m.spec = 1) && outstanding s.helm) ||
  (decide (m.spec = 6) && decide (16 ≤ s.helm.notifyQ.length))

/-- The microword is held by a stall that waits on another unit (R112): the halo wait, the Loader share, the
notification stall, or a wait on an installation-scope reduction. -/
def unitStall (s : State) : Bool :=
  match s.helm.run with
  | none => false
  | some k =>
    let m := Micro.of (storeGet 0 s.helm.store k.next.toNat)
    k.halt.isNone && !k.ended && (s.helm.halow.isSome || s.helm.steal ||
    (decide (m.spec = 6) && decide (16 ≤ s.helm.notifyQ.length)) ||
    ((decide (m.cond = 1) || decide (m.cond = 2)) &&
      s.helm.red.any (fun r => r.slot.isNone && r.inst.isSome)) ||
    (decide (m.lcld % 8 = 7) &&
      s.helm.red.any (fun r => decide (r.slot = some (BitVec.ofNat 4 m.imm)) && r.inst.isSome)))

/-- The running kernel may issue, apart from a debug halt (R60, R109, R110, R112). -/
def mayIssue (s : State) : Option KernelCtx :=
  match s.helm.run with
  | none => none
  | some k =>
    if s.hx1 ∧ runs s ∧ s.helm.paused = false ∧ s.helm.held = false ∧ s.helm.landing = false ∧
       k.ended = false ∧ k.halt = none ∧ s.helm.halow = none then some k else none

/-- The microword at the sequencer's address. -/
def fetched (s : State) (k : KernelCtx) : Micro := Micro.of (storeGet 0 s.helm.store k.next.toNat)

/-- The fetched word fails its parity. -/
def parityFails (s : State) (k : KernelCtx) : Bool := s.helm.parityBad.any fun p => decide (p.1 = k.next.toNat)

/-! ## Sequencing (R78–R84) -/

/-- Whether COND holds (R81). -/
def condHolds (k : KernelCtx) (cond : Nat) : Bool :=
  match cond with
  | 1 => k.gor
  | 2 => !k.gor
  | 3 => k.gor
  | 4 => !k.gor
  | 5 => decide (k.lc0 = 0)
  | 6 => decide (k.lc0 ≠ 0)
  | 7 => decide (k.lc1 = 0)
  | 8 => decide (k.lc1 ≠ 0)
  | _ => true

/-- A CALL that overflows or a RET that underflows the micro-return stack (R80). -/
def stackFails (k : KernelCtx) (m : Micro) : Bool :=
  condHolds k m.cond &&
  ((decide (m.seq = 3) && decide (8 ≤ k.stack.length)) || (decide (m.seq = 4) && decide (k.stack = [])))

/-- SEQ is ILLEGAL or reserved (R78). -/
def seqIllegal (m : Micro) : Bool := decide (m.seq = 0) || decide (8 ≤ m.seq)

/-- The sequencer after a microword (R78–R80). -/
def sequence (k : KernelCtx) (m : Micro) : KernelCtx :=
  let nx := k.next + 1
  let yes := condHolds k m.cond
  let k := { k with upc := k.next }
  match m.seq with
  | 2 => { k with next := if yes then m.target else nx }
  | 3 => if yes then { k with next := m.target, stack := nx :: k.stack } else { k with next := nx }
  | 4 => if yes then { k with next := k.stack.headD nx, stack := k.stack.tail } else { k with next := nx }
  | 5 =>
    if decide (k.lc0 = (0 : BitVec 16)) then { k with next := nx }
    else
      let c : BitVec 16 := k.lc0 - 1
      if decide (c ≠ 0) && yes then { k with lc0 := c, i0 := k.i0 + 1, next := m.target }
      else { k with lc0 := c, next := nx }
  | 6 =>
    if decide (k.lc1 = (0 : BitVec 16)) then { k with next := nx }
    else
      let c : BitVec 16 := k.lc1 - 1
      if decide (c ≠ 0) && yes then { k with lc1 := c, i1 := k.i1 + 1, next := m.target }
      else { k with lc1 := c, next := nx }
  | 7 => { k with next := nx, ended := yes }
  | _ => { k with next := nx }

/-- A loop counter's load, after any LOOP update (R83). -/
def loadCounter (k : KernelCtx) (lcld v : Nat) : KernelCtx :=
  if lcld % 8 = 0 then k
  else if lcld / 8 = 0 then { k with lc0 := BitVec.ofNat 16 v, i0 := 0 }
  else { k with lc1 := BitVec.ofNat 16 v, i1 := 0 }

/-! ## The width probe (R88–R90, R150–R155) -/

/-- Width that a CLOSE commits for a descriptor from the highest non-zero offset (R151). -/
def probeWidth (d : Word) (high : Option Nat) : Nat :=
  let h := match high with | some i => i + 1 | none => 0
  min (if descSigned d then max 1 h else h) (descDw d)

/-- The bits that a probed write sends to the probe lane (R150). -/
def probeBits (signed : Bool) (off : Nat) (stored dOld : Plane) : Plane :=
  if signed then (if off = 0 then 0 else stored ^^^ dOld) else stored

/-- The probe of one microword: whether it is performed, whether D takes STORED, the kernel's tracker and the
Helm's lists afterwards. -/
structure ProbeStep where
  bad    : Bool
  forceD : Bool
  seqs   : Nat
  track  : Option Tracker
  result : Option ProbeRes
  commit : Option Tracker
  deriving DecidableEq, Repr

/-- The probe of a microword whose write port is t (R88, R89, R154); its result and its commit fall at the landing
count `due`. -/
def probeStep (s : State) (k : KernelCtx) (probe : Nat) (t : Target) (stored dOld : Plane) (due : Nat) : ProbeStep :=
  let idle : ProbeStep :=
    { bad := false, forceD := false, seqs := s.helm.seqs, track := k.track, result := none, commit := none }
  let bound (n : Nat) : Bool := match k.track with | some r => decide (r.desc = n) | none => false
  if probe = 0 then idle
  else match t.var with
    | none => { idle with bad := true }
    | some (n, off) =>
      if probe ≠ 1 ∧ bound n = false then { idle with bad := true }
      else
        let seqs := if probe = 1 then s.helm.seqs + 1 else s.helm.seqs
        let tr : Option Tracker := if probe = 1 then some ⟨seqs, n, none, 0⟩ else k.track
        let signed := descSigned (descAt s n)
        let id := match tr with | some r => r.seq | none => 0
        let hit : Option ProbeRes :=
          if t.plane.isSome then some ⟨id, off, anyPe (probeBits signed off stored dOld), due⟩ else none
        { bad := false, forceD := t.plane.isSome && signed, seqs := seqs,
          track := if probe = 3 then none else tr, result := hit,
          commit := if probe = 3 then tr.map fun r => { r with due := due } else none }

/-- A probe result is recorded in the tracker of its sequence. -/
def Tracker.take (t : Tracker) (r : ProbeRes) : Tracker :=
  if t.seq = r.seq ∧ r.nonzero then
    { t with high := some (match t.high with | some h => max h r.offset | none => r.offset) }
  else t

/-! ## The count between landings (R111) -/

/-- ACLK that pass in ns nanoseconds at clock setting n. -/
def aclkIn (n ns : Nat) : Nat := n * ns / 16

/-- ACLK since the last landing: those of the Helm's own actions, or those that time shows (DESIGN CHOICE, log 165).
While no kernel runs every instant is a landing (R109). -/
def gapNow (s : State) : Nat :=
  if s.helm.run.isNone then 0
  else max s.helm.gap (s.helm.gapBase + aclkIn s.wdn.aclkEff (s.now - s.helm.gapAt))

/-- A kernel starts or resumes, which is a landing: the count begins here. -/
def beginRun (s : State) (k : KernelCtx) : State :=
  updHelm s fun h => { h with run := some k, landing := true, gap := 0, gapLate := false, gapBase := 0, gapAt := s.now }

/-- The count has passed HLM_LSPAN.LIMIT: LANDLATE is set at once, and once for the gap. -/
def lateCheck (s : State) : State :=
  let limit := getField s Reg.hlmLspan 15 0
  if s.helm.run.isSome ∧ s.helm.gapLate = false ∧ limit ≠ 0 ∧ limit < gapNow s then
    helmErr (updHelm s fun h => { h with gapLate := true }) hLANDLATE
  else s

/-! ## Reductions -/

/-- The reduction that a microword issues: RED and RSCOPE (R35, R38, R39, R87, R446); its last ACLK ends at the
landing count `done_`. -/
def newReduction (s : State) (m : Micro) (y : Plane) (done_ : Nat) : Option Reduction :=
  let v := y &&& livePes s
  let masked := v &&& s.arr.m
  let inst : Option Nat :=
    if m.rscope ∧ isMember s ∧ s.ttb.pass = 0 then some s.fry.reds else none
  let gor (v : Plane) : Reduction :=
    { slot := none, inst := inst, value := if anyPe v then 1 else 0, since := s.now, sail := instSail s,
      due := done_ + 8 }
  let count (v : Plane) : Reduction :=
    { slot := some (BitVec.ofNat 4 m.rslot), inst := inst, value := census v, since := s.now, sail := instSail s,
      due := done_ + 16 }
  match m.red with
  | 1 => some (gor masked)
  | 2 => some (gor v)
  | 3 => some (count masked)
  | 4 => some (count v)
  | _ => none

/-- A reduction joins the outstanding ones; one of installation scope is sent to the other members (R456). -/
def issueReduction (s : State) (r : Reduction) : State :=
  let s := updHelm s fun h => { h with red := h.red ++ [r] }
  match r.inst with
  | none => s
  | some k =>
    let s := updFry s fun f => { f with reds := f.reds + 1 }
    sendAll s (firstHops s) (.contribution s.fry.node r.sail k r.slot.isSome r.value)

/-- Something outstanding completes, so that at least `due` ACLK have passed since the last landing (R111); those in
which the Helm issued nothing gave the Loader its slots (R220). -/
def passDue (s : State) (due : Nat) : State :=
  lateCheck (updHelm s fun h =>
    { h with gap := max h.gap due, noSlot := if h.gap < due then NoSlot.zero else h.noSlot })

/-! ## Slots that microwords leave to the Loader (R45, R219, R220) -/

/-- A plane access of a microword: its ACLK, counted from 1, its plane, and whether it writes. -/
structure Slot where
  aclk  : Nat
  plane : Nat
  write : Bool
  deriving DecidableEq, Repr

/-- The count of ACLK without a slot of one kind after one more ACLK. -/
def noSlotStep (acc : List Slot) (i parity : Nat) (write : Bool) (n : Nat) : Nat :=
  if acc.any fun a => decide (a.aclk = i) && decide (a.plane % 2 = parity) && decide (a.write = write) then n + 1 else 0

/-- The counts after one ACLK of a microword. -/
def NoSlot.aclk (acc : List Slot) (w : NoSlot) (i : Nat) : NoSlot :=
  { readEven := noSlotStep acc i 0 false w.readEven, readOdd := noSlotStep acc i 1 false w.readOdd,
    writeEven := noSlotStep acc i 0 true w.writeEven, writeOdd := noSlotStep acc i 1 true w.writeOdd }

/-- The counts after a microword of `len` ACLK: one with YIELD ends every wait (R96). -/
def NoSlot.after (w : NoSlot) (yld : Bool) (len : Nat) (acc : List Slot) : NoSlot :=
  if yld then NoSlot.zero else (rangeFrom 1 len).foldl (NoSlot.aclk acc) w

/-- The count of ACLK without a slot for an access to a plane. -/
def NoSlot.of (w : NoSlot) (plane : Nat) (write : Bool) : Nat :=
  match write, decide (plane % 2 = 0) with
  | false, true => w.readEven
  | false, false => w.readOdd
  | true, true => w.writeEven
  | true, false => w.writeOdd

/-- A completed reduction's result reaches the kernel (R87, R137). -/
def takeReduction (s : State) (r : Reduction) (v : Nat) : State :=
  let s := passDue s r.due
  match s.helm.run with
  | none => s
  | some k =>
    match r.slot with
    | none => setRun s { k with gor := decide (v ≠ 0) }
    | some n => setRun s { k with slots := k.slots.set n.toNat (BitVec.ofNat 21 v) n.isLt }

/-! ## The datapath of one microword -/

/-- Read a source. -/
def readSource (s : State) (r : Source) : State × Plane :=
  match r with
  | .value v => (s, v &&& livePes s)
  | .plane n => planeRead s n

/-- The planes of a HALOX, read one per ACLK from port A and posted (R93, R448). Which of them port A delivers as P
to the datapath is not said: it answers the first, 0 of a HALOX that reads none (DESIGN CHOICE, log 156). -/
def haloPlanes (s : State) (k : KernelCtx) (m : Micro) : Nat → Nat → State × Plane
  | 0, _ => (s, 0)
  | n + 1, i =>
    let (src, err) := readPort s k m.pa i
    let (s, p) := readSource (helmErr s err) src
    let s := haloPost s (dirSide m.dir) (m.halosel + i) p
    ((haloPlanes s k m n (i + 1)).1, p)

/-- Planes that the ports of a HALOX read, with the ACLK of each. -/
def haloReads (s : State) (k : KernelCtx) (m : Micro) (count : Nat) : List (Nat × Nat) :=
  (List.range count).filterMap fun i => ((readPort s k m.pa i).1.plane?).map fun p => (i + 1, p)

/-- The read of the cut plane by a microword of `clen` ACLK that enables a bus (R66, R86, R129): 4092 for rows, 4093
for columns, in ACLK min(3, CLEN). Code 0b10 leaves the bus uncut whatever the plane holds. Only below CLEN 4 does
the read give way to a port read in its ACLK and sub-bank (R65). -/
def readCut (s : State) (code cutPlane clen : Nat) (reads : List (Nat × Nat)) : State × Plane × Bool :=
  if code ≠ 1 ∧ code ≠ 2 then (s, 0, false)
  else if clen < 4 ∧ reads.any (fun r => decide (r.1 = min 3 clen) && decide (r.2 % 2 = cutPlane % 2)) then (s, 0, true)
  else
    let (s, p) := planeRead s cutPlane
    (s, if code = 1 then p else 0, false)

/-- What a bus delivers to every PE (R65, R86, R130, R132). `full` is the segments' value. -/
def busValue (s : State) (code clen : Nat) (full : Plane) : Plane :=
  if code = 0 ∨ code = 3 then 0
  else if 4 ≤ clen then full
  else (s.arr.x &&& s.arr.m) ||| (freePlane s &&& full)

/-- The edge fill of XIN (R85, R124, R126). -/
def edgeFill (s : State) (m : Micro) : EdgeFill :=
  match m.edge with
  | 0 => .zero
  | 1 => .one
  | 2 => .wrap
  | _ => .halo (haloSlot s (dirFrom m.dir) m.halosel)

/-- What a latch loads from the sources of its code (R30). -/
def latchPick (code : Nat) (hold a b c : Plane) : Plane :=
  match code with
  | 1 => a
  | 2 => b
  | 3 => c
  | _ => hold

/-- A gated latch load (R40). -/
def gated (mgate : Bool) (mask new old : Plane) : Plane := if mgate then mergePlane mask new old else new

/-- Reserved codes of a microword set BADCODE (R27, R29, R81, R86, R87, R91, R92, R94), in an ABAR too: its RBUS and
CBUS act as 0b00 whatever they hold (R197), and 0b11 sets the flag as R86 has it (DEDUCED, log 157). -/
def codeErrors (m : Micro) : Word :=
  hIf (decide (8 < m.cond) || decide (6 < m.spec) || decide (m.flag = 7) || decide (4 < m.red) ||
       decide (m.cin = 3) || decide (m.rbus = 3) || decide (m.cbus = 3) ||
       ((decide (m.spec = 2) || decide (m.spec = 3)) && decide (0 < m.count) && !m.haloOk)) hBADCODE

/-- The adder, the boolean unit and Y of every PE (R29, R31, 02). -/
structure Datapath where
  sInv : Plane
  cout : Plane
  y    : Plane
  deriving DecidableEq, Repr

/-- The datapath's results from the operands. -/
def compute (s : State) (m : Micro) (p b xin row col : Plane) : Datapath :=
  let a := s.arr
  let sel : Plane :=
    match m.ssel with
    | 0 => a.q | 1 => b | 2 => a.x | 3 => xin | 4 => row | 5 => col | 6 => a.d | _ => a.c
  let si := if m.sinv then ~~~ sel else sel
  let t : Plane := match m.tsel with | 0 => a.c | 1 => a.d | 2 => a.x | _ => a.m
  let cin : Plane := match m.cin with | 1 => 0 | 2 => allPes | _ => a.c
  let cout := majority p si cin
  let y : Plane :=
    match m.ysel with
    | 0 => p ^^^ si ^^^ cin
    | 1 => booleanUnit m.tt p si t
    | 2 => cout
    | _ => xin
  { sInv := si, cout := cout, y := y }

/-- F of the boolean unit, which the flag update ORs in (R91). -/
def flagBits (s : State) (m : Micro) (p si : Plane) : Plane :=
  let a := s.arr
  let t : Plane := match m.tsel with | 0 => a.c | 1 => a.d | 2 => a.x | _ => a.m
  booleanUnit m.tt p si t

/-- All latches load at the end of the microword (R30, R32, R37, R40, R41). -/
def loadLatches (s : State) (m : Micro) (dp : Datapath) (p xin stored : Plane) (forceD : Bool) : State :=
  let a := s.arr
  let g (new old : Plane) : Plane := gated m.mgate a.m new old
  setLatches s
    (g (latchPick m.ldc a.c dp.cout dp.y p) a.c)
    (if forceD then stored else g (latchPick m.ldd a.d dp.y p stored) a.d)
    (g (latchPick m.ldx a.x dp.y p xin) a.x)
    (latchPick m.ldm a.m dp.y p dp.sInv)
    (g (latchPick m.ldq a.q dp.y p dp.sInv) a.q)

/-- WIDTH_RESET and WIDTH_SET (R95). -/
def widthOp (s : State) (m : Micro) (t : Target) : State :=
  match t.var with
  | none => helmErr s hBADVAR
  | some (n, _) =>
    let d := descAt s n
    let w := if m.spec = 4 then descDw d else m.count
    if m.spec = 5 ∧ (descDw d < w ∨ (w = 0 ∧ descSigned d)) then helmErr s hBADDESC
    else setDesc s n (descWithLw d w)

/-- The evaluation of the enabled flags (R197, R198, R199): the planes that OR to 1. -/
def barrierFlags (s : State) (trap : BitVec 6) : Nat → State × BitVec 6
  | 0 => (s, 0)
  | n + 1 =>
    let (s, f) := barrierFlags s trap n
    if trap.getLsbD n then
      let (s, p) := planeRead s (4072 + n)
      (s, if anyPe p then f ||| BitVec.ofNat 6 (1 <<< n) else f)
    else (s, f)

/-- A barrier of a kernel: its event is queued, or discarded and counted at a full queue (R198–R200). -/
def barrier (s : State) (k : KernelCtx) (upc : BitVec 15) (atEnd : Bool) : State × KernelCtx :=
  let (s, f) := barrierFlags s k.req.trap 6
  if f = 0 then (s, k)
  else
    let e : FpEvent :=
      { kid := k.req.kid, atEnd := atEnd, flags := f, lc0 := k.lc0, upc := upc, sail := s.ttb.sail }
    let s := if 8 ≤ s.helm.fpq.length then countField s Reg.hlmFpevCtl 31 16 1
      else updHelm s fun h => { h with fpq := h.fpq ++ [e] }
    (s, { k with fpev := true })

/-- The number of flags that a trap mask enables. -/
def trapCount (t : BitVec 6) : Nat := ((List.range 6).filter fun i => t.getLsbD i).length

/-- Length of a microword in ACLK (R63, R65, R92, R93). A HALOX whose count R94 refuses does nothing, and the model
takes its CLEN alone: R93's max(CLEN, count) counts planes that it does not read (DESIGN CHOICE, log 195). -/
def mwLength (k : KernelCtx) (m : Micro) : Nat :=
  if m.spec = 1 then max m.clen (if trapCount k.req.trap = 0 then 1 else trapCount k.req.trap + 8)
  else if m.spec = 2 ∧ m.haloOk then max m.clen m.count
  else m.clen

/-- What follows a microword's datapath: sequencing, loop counters, landing and gap, and the slots that its accesses
left to the Loader. -/
def advance (s : State) (k : KernelCtx) (m : Micro) (loop : Nat) (acc : List Slot) : State :=
  let len := mwLength k m
  let k := loadCounter (sequence k m) m.lcld loop
  lateCheck (updHelm (setRun s k) fun h =>
    { h with landing := m.landing && !k.ended, gap := h.gap + len, steal := false, dbgStep := false, waited := false,
             noSlot := h.noSlot.after m.yld len acc })

/-- The flag planes that a barrier reads, one per ACLK in the order NV to DN (R197). -/
def barrierReads (trap : BitVec 6) : List Slot :=
  (((List.range 6).filter fun i => trap.getLsbD i).zipIdx).map fun p => ⟨p.2 + 1, 4072 + p.1, false⟩

/-- An ABAR microword (R92, R197): the barrier, and no access, reduction, probe or flag update of its own; its
ports deliver 0 and its buses are off. A port that names no valid descriptor, no plane or no virtual source sets the
flag of R27, R74, R75 or R76 as in any microword (DEDUCED, log 155). -/
def issueAbar (s : State) (k : KernelCtx) (m : Micro) : State :=
  let (loop, lerr) := loopLoad s k m
  let perr := (readPort s k m.pa 0).2 ||| (readPort s k m.pb 0).2 ||| (writePort s k m.pw).err
  let s := helmErr s (codeErrors m ||| lerr ||| perr)
  let (s, k) := barrier s k k.next false
  let xin := xinOf m.dir s.arr.x (edgeFill s m) &&& livePes s
  let dp := compute s m 0 0 xin 0 0
  let stored := freePlane s
  let s := loadLatches (usedFree s) m dp 0 xin stored false
  advance s k m loop (barrierReads k.req.trap)

/-- The plane accesses of a microword other than an ABAR: those of its ports, the cut reads (R66), and the plane write
and the flag update (R32, R68). -/
def wordSlots (m : Micro) (k : KernelCtx) (reads : List (Nat × Nat)) (hitR hitC : Bool) (write flag : Option Nat) :
    List Slot :=
  let len := mwLength k m
  let cut (code plane : Nat) (hit : Bool) : List Slot :=
    if (code = 1 ∨ code = 2) ∧ hit = false then [⟨min 3 m.clen, plane, false⟩] else []
  let same : Bool := match write, flag with | some w, some f => decide (w % 2 = f % 2) | _, _ => false
  (reads.map fun r => ⟨r.1, r.2, false⟩) ++ cut m.rbus 4092 hitR ++ cut m.cbus 4093 hitC ++
    (write.toList.map fun p => ⟨len, p, true⟩) ++ (flag.toList.map fun p => ⟨if same then len - 1 else len, p, true⟩)

/-- Any other microword of the running kernel issues (R63–R96). A HALOX resolves its port B, which it does not read,
for the flags alone (R27, R74–R76; DEDUCED, log 155). -/
def issueWord (s : State) (k : KernelCtx) (m : Micro) : State :=
  let old := s.arr
  let halox : Bool := decide (m.spec = 2)
  let posts := if m.haloOk then m.count else 0
  let done_ := s.helm.gap + mwLength k m
  let (loop, lerr) := loopLoad s k m
  let (srcA, errA) := readPort s k m.pa 0
  let (srcB1, errB) := readPort s k m.pb 0
  let srcB0 := if halox then .value 0 else srcB1
  let t0 := writePort s k m.pw
  let t : Target := if halox then { t0 with plane := none } else t0
  let clash : Bool := match srcA.plane?, srcB0.plane? with
    | some a, some b => decide (m.clen = 1) && decide (a ≠ b) && decide (a % 2 = b % 2)
    | _, _ => false
  let srcB : Source := if clash then .value 0 else srcB0
  let s := helmErr s (codeErrors m ||| lerr ||| errA ||| errB ||| t.err)
  let reads : List (Nat × Nat) :=
    if halox then haloReads s k m posts
    else ((srcA.plane?).map fun p => (1, p)).toList ++
      ((srcB.plane?).map fun p => (min 2 m.clen, p)).toList
  let (s, p) := if halox then haloPlanes s k m posts 0 else readSource s srcA
  let shared : Bool := decide (m.clen = 1) && srcA.plane?.isSome && decide (srcA = srcB)
  let (s, b) := if shared then (s, p) else readSource s srcB
  let (s, rowCut, hitR) := readCut s m.rbus 4092 m.clen reads
  let (s, colCut, hitC) := readCut s m.cbus 4093 m.clen reads
  let drive := old.x &&& old.m
  let row := if m.ssel = 4 then busValue s m.rbus m.clen (rowBus drive rowCut) else 0
  let col := if m.ssel = 5 then busValue s m.cbus m.clen (colBus drive colCut) else 0
  let s := if m.clen < 4 then usedFree s else s
  let xin := xinOf m.dir old.x (edgeFill s m) &&& livePes s
  let dp := compute s m p b xin row col
  let fplane := 4071 + m.flag
  let flagOn : Bool := decide (0 < m.flag) && decide (m.flag < 7)
  let flagHit : Bool := match t.plane with
    | some w => flagOn && decide (w % 2 = fplane % 2) && decide (m.clen = 1)
    | none => false
  let flagDone : Bool := flagOn && !flagHit
  let s := if flagDone then (planeWrite s fplane allPes (old.m &&& flagBits s m p dp.sInv)).1 else s
  let (s, stored) := match t.plane with
    | some w => planeWrite s w dp.y old.m
    | none => (usedFree s, freePlane s)
  let s := helmConflicts s
    ((if clash then 1 else 0) + (if flagHit then 1 else 0) + (if hitR || hitC then 1 else 0))
  let pr := probeStep s k m.probe t stored old.d (done_ + 2)
  let s := if m.spec = 4 ∨ m.spec = 5 then widthOp s m t else s
  let s := helmErr s (hIf pr.bad hBADCODE)
  let s := updHelm s fun h =>
    { h with seqs := pr.seqs, probes := h.probes ++ pr.result.toList, commits := h.commits ++ pr.commit.toList }
  let red := newReduction s m dp.y done_
  let s := loadLatches s m dp p xin stored pr.forceD
  let s := match red with | some r => issueReduction s r | none => s
  let s := if m.spec = 6 then updHelm s fun h => { h with notifyQ := h.notifyQ ++ [BitVec.ofNat 16 m.imm] } else s
  let acc := wordSlots m k reads hitR hitC t.plane (if flagDone then some fplane else none)
  advance s { k with track := pr.track } m loop acc

/-! ## The end of a kernel (R106, R107) -/

/-- The kernel status is success for its submitter (R254). -/
def kernelOk (status : Nat) : Bool := decide (status = 0) || decide (status = 6)

/-- A kernel's status goes to its submitter; `slot0` is census slot 0. The spec gives firmware no register in which it
reads the status of a kernel of its own: the model keeps KID and status (DESIGN CHOICE, log 158). -/
def reportKernel (s : State) (k : KernelReq) (status slot0 : Nat) : State :=
  match k.owner with
  | .firmware => updHelm s fun h => { h with told := h.told ++ [(k.kid, BitVec.ofNat 4 status)] }
  | .timetable sail pass idx => timetableReport s sail pass idx (kernelOk status) (BitVec.ofNat 4 status)
  | .queue qp pos => complete s qp.toNat pos (if kernelOk status then 0 else 7) status (BitVec.ofNat 32 slot0)

/-- The gap between landings ends: MAXSEEN, and the Helm event of a late one (R111). -/
def endGap (s : State) : State :=
  let s := lateCheck s
  let g := gapNow s
  let s := if getField s Reg.hlmLspan 31 16 < g then setField s Reg.hlmLspan 31 16 (min g 0xFFFF) else s
  let s := if s.helm.gapLate then report s 0x0B 0 (BitVec.ofNat 32 (min g 0xFFFFFFFF)) else s
  updHelm s fun h => { h with gap := 0, gapLate := false, gapBase := 0, gapAt := s.now }

/-- Census slots and KID of a started kernel that ends (R107). -/
def copySlots (s : State) (k : KernelCtx) : State :=
  let s := (List.range 16).foldl
    (fun s i => setReg s (Reg.hlmRslot + 4 * i) ((k.slots.toList.getD i 0).zeroExtend 32)) s
  setReg s Reg.hlmRkid (k.req.kid.zeroExtend 32)

/-- The running kernel ends with a status, and no STOP outlives it (R106, R107, R110). -/
def endRun (s : State) (k : KernelCtx) (status : Nat) : State :=
  let s := copySlots (endGap s) k
  let s := updHelm s fun h =>
    { h with run := none, landing := false, stopReq := false, halow := none, waited := false, red := [], probes := [],
             commits := [], dbgStep := false, noSlot := NoSlot.zero }
  orderWaiting (reportKernel s k.req status ((k.slots[0]).toNat))

end Sys2Proof.Machine
end

