-- ==== Sys2Proof/Machine/LoaderCore.lean ====
section
/-!
DEFINITION. The Loader's shared operations: transfer blocks and their checks, the elements of a window, loads
and stores, and reports (07).
-/
namespace Sys2Proof.Machine

/-! ## Transfer blocks (R211, R212) -/

/-- The fields of a transfer block. -/
structure Xfer where
  addr    : Nat
  space   : Nat
  cont    : Nat
  map     : Nat
  abs     : Bool
  signext : Bool
  target  : Nat
  count   : Nat
  sx      : Nat
  sy      : Nat
  twCode  : Nat
  thCode  : Nat
  pitch   : Nat
  r0      : Nat
  c0      : Nat
  h       : Nat
  wn      : Nat
  xid     : Nat
  deriving DecidableEq, Repr

/-- The fields of a block (R211). -/
def Xfer.of (b : Block32) : Xfer :=
  let fmt := blkField b 9 1
  let abs := fmt.testBit 5
  { addr := blkField b 0 8 % 2 ^ 37, space := blkField b 8 1 % 4, cont := fmt % 8, map := fmt / 8 % 4,
    abs := abs, signext := fmt.testBit 6,
    target := if abs then blkField b 10 2 % 4096 else blkField b 10 2 % 1024,
    count := blkField b 12 1, sx := blkField b 13 1 % 16 + 1, sy := blkField b 13 1 / 16 + 1,
    twCode := blkField b 14 1 % 8, thCode := blkField b 14 1 / 16 % 8, pitch := blkField b 16 4,
    r0 := blkField b 20 2 % 1024, c0 := blkField b 22 2 % 1024, h := blkField b 24 2 % 2048,
    wn := blkField b 26 2 % 2048, xid := blkField b 28 2 }

/-- Bytes of a container; a bit container is handled by its byte. -/
def Xfer.size (x : Xfer) : Nat :=
  match x.cont with
  | 2 => 2
  | 3 => 4
  | 4 => 8
  | _ => 1

/-- Bits of a container: 8E. -/
def Xfer.bitsOf (x : Xfer) : Nat := if x.cont = 0 then 1 else 8 * x.size

/-- Tile width and height of a TILED transfer. -/
def Xfer.tw (x : Xfer) : Nat := 2 ^ (x.twCode + 3)
def Xfer.th (x : Xfer) : Nat := 2 ^ (x.thCode + 3)

/-- Byte offset from ADDR that row j of the window contributes (R212). -/
def Xfer.rowOff (x : Xfer) (j : Nat) : Nat :=
  match x.map with
  | 0 => j * x.pitch
  | 1 => j * x.sy * x.pitch
  | _ => j / x.th * x.pitch + j % x.th * x.tw * x.size

/-- Byte offset that column i of the window contributes (R212). -/
def Xfer.colOff (x : Xfer) (i : Nat) : Nat :=
  if x.cont = 0 then i / 8
  else match x.map with
    | 0 => i * x.size
    | 1 => i * x.sx * x.size
    | _ => i / x.tw * x.tw * x.th * x.size + i % x.tw * x.size

/-- Offset within SPACE of the byte that holds, or begins, element (j, i). -/
def Xfer.elemAddr (x : Xfer) (j i : Nat) : Nat := x.addr + x.rowOff j + x.colOff i

/-- Module address of SPACE's first byte. -/
def Xfer.base (x : Xfer) : Nat :=
  match x.space with
  | 0 => 0
  | 1 => bankAddr 1 0
  | _ => bankAddr 3 0

/-- Size of SPACE. -/
def Xfer.spaceSize (x : Xfer) : Nat := if x.space = 0 then dramSize else bankSize

/-- The largest of the offsets of n rows or columns, whose tiles are t long: at the last, or at the end of the
last whole tile. -/
def farthest (f : Nat → Nat) (n t : Nat) : Nat := max (f (n - 1)) (if t ≤ n then f (n / t * t - 1) else 0)

/-- The first byte offset beyond every element of a window that is not empty. -/
def Xfer.endOff (x : Xfer) : Nat :=
  x.addr + farthest x.rowOff x.h x.th + farthest x.colOff x.wn x.tw + x.size

/-- The window is empty, or no plane is named (R217). -/
def Xfer.empty (x : Xfer) : Bool :=
  decide (x.h = 0) || decide (x.wn = 0) || (x.abs && decide (x.count = 0))

/-! ## Checks (R211, R213, R216) -/

/-- The format is reserved or misaligned: BADFMT. -/
def Xfer.badFormat (x : Xfer) : Bool :=
  decide (x.space = 3) || decide (4 < x.cont) || decide (x.map = 3) || (x.abs && decide (64 < x.count)) ||
  (decide (x.map = 2) && (decide (3 < x.twCode) || decide (3 < x.thCode))) ||
  (if x.cont = 0 then decide (x.map ≠ 0)
   else decide (x.addr % x.size ≠ 0) || decide (x.pitch % x.size ≠ 0))

/-- The status that refuses a transfer, or 0. The spec ranks no condition above another: where several hold, the
model reports BADFMT first, then the conditions in the order of the table of R216 (DESIGN CHOICE, log 163). -/
def checkTransfer (s : State) (x : Xfer) (load : Bool) : Nat :=
  let some_ : Bool := decide (0 < x.h) && decide (0 < x.wn)
  if x.badFormat then 4
  else if 1024 < x.r0 + x.h ∨ 1024 < x.c0 + x.wn then 1
  else if some_ ∧ x.spaceSize < x.endOff then 1
  else if x.abs = false ∧ descValid (descAt s x.target) = false then 2
  else if x.abs ∧ 4096 < x.target + x.count then 1
  else if load ∧ x.abs ∧ 0 < x.count ∧ 4072 < x.target + x.count then 3
  else if load = false ∧ x.space = 1 ∧ some_ ∧ 0x7FFF00 < x.endOff then 7
  else 0

/-! ## Windows -/

/-- The PEs of the window. -/
def Xfer.window (x : Xfer) : Plane :=
  let row := (2 ^ x.wn - 1) <<< x.c0
  BitVec.ofNat peCount ((List.range x.h).foldl (fun p j => p ||| row <<< (1024 * (x.r0 + j))) 0)

/-- The window covers every PE (R223). -/
def Xfer.full (x : Xfer) : Bool := decide (x.h = 1024) && decide (x.wn = 1024)

/-- Some element of the window satisfies a test of its byte offset. -/
def Xfer.anyElem (x : Xfer) (f : Nat → Bool) : Bool :=
  (List.range x.h).any fun j => (List.range x.wn).any fun i => f (x.elemAddr j i)

/-- Some container of the window meets n bytes at a module address. -/
def Xfer.meets (x : Xfer) (a n : Nat) : Bool :=
  x.anyElem fun o => decide (x.base + o < a + n) && decide (a < x.base + o + x.size)

/-- The window's containers cover every byte of the 8-byte word w. -/
def Xfer.coversWord (x : Xfer) (w : Nat) : Bool :=
  decide (x.cont ≠ 0) && (rangeFrom (8 * w) 8).all fun a => x.meets a 1

/-- The distinct 64-byte blocks that the window's elements touch, times 64: B_moved (R222). -/
def Xfer.moved (x : Xfer) : Nat :=
  let blocks := (List.range x.h).flatMap fun j => (List.range x.wn).map fun i => (x.base + x.elemAddr j i) / 64
  64 * blocks.eraseDups.length

/-! ## Module memory of a transfer -/

/-- Whether the transfer's memory answers: module DRAM and Bank 1 on ports of the Loader's own, Bank 3 over
the network from NI 3 (R222, R410, R419). -/
def spaceAnswers (s : State) (x : Xfer) : State × Bool :=
  if x.space = 2 then
    match nocGate s 3 x.base with
    | (s, .ok) => (s, true)
    | (s, _) => (s, false)
  else (s, true)

/-- The damaged words that the window's containers touch. Whether an uncorrectable word that only shares a fetched
block with them counts is not said: it does not (DESIGN CHOICE, log 197). -/
def damagedIn (s : State) (x : Xfer) : List (Nat × Damage) :=
  s.mem.damage.filter fun p => x.meets (8 * p.1) 8

/-- The Pilots' dirty lines that the window touches are written back first (R404). -/
def snoopWindow (s : State) (x : Xfer) : State :=
  writeBack s fun l => x.meets (64 * l) 64

/-- The container of element (j, i) as a number. -/
def readElem (s : State) (x : Xfer) (j i : Nat) : Nat :=
  let a := x.base + x.elemAddr j i
  if x.cont = 0 then ((memByte s a).toNat >>> (i % 8)) % 2 else numOf (memBytes s a x.size)

/-- A number whose bit at PE (R0 + j, C0 + i) is f j i. -/
def Xfer.gather (x : Xfer) (f : Nat → Nat → Bool) : Plane :=
  BitVec.ofNat peCount ((List.range x.h).foldl (fun p j =>
    (List.range x.wn).foldl (fun p i =>
      if f j i then p ||| 1 <<< ((x.r0 + j) * 1024 + x.c0 + i) else p) p) 0)

/-! ## A load (R214, R223, R224, R230) -/

/-- Plane i of a load: container bit i, or the extension. -/
def loadPlane (s : State) (x : Xfer) (signed : Bool) (i : Nat) : Plane :=
  let n := x.bitsOf
  if i < n then x.gather fun j c => (readElem s x j c).testBit i
  else if signed then x.gather fun j c => (readElem s x j c).testBit (n - 1)
  else 0

/-- The planes of a load as fetched from memory, low first; a memory that does not answer gives free values. -/
def fetchPlanes (s : State) (x : Xfer) (signed answers : Bool) : Nat → State × List Plane
  | 0 => (s, [])
  | w + 1 =>
    let (s, l) := fetchPlanes s x signed answers w
    if answers then (s, l ++ [loadPlane s x signed w]) else (usedFree s, l ++ [freePlane s])

/-- Write the planes of a load from plane `base` on. When and with what the Loader writes its transpose staging planes
4088–4091 is not said: a transfer leaves them as they stand (DESIGN CHOICE, log 164). -/
def loadPlanes (s : State) (x : Xfer) (base : Nat) : List Plane → State
  | [] => s
  | v :: t => loadPlanes (planeWriteIn s base v x.window x.window).1 x (base + 1) t

/-- The live width that R151 gives for w planes from `base`. -/
def planesWidth (s : State) (signed : Bool) (base : Nat) : Nat → Nat
  | 0 => if signed then 1 else 0
  | w + 1 =>
    let v := planeBits s (base + w) &&& livePes s
    let below := planeBits s (base + w - 1) &&& livePes s
    if signed then
      if 0 < w ∧ anyPe (v ^^^ below) then w + 1 else planesWidth s signed base w
    else if anyPe v then w + 1 else planesWidth s signed base w

/-- Element width and first plane of a transfer, and whether it is signed (R211). -/
def xferShape (s : State) (x : Xfer) : Nat × Nat × Bool :=
  if x.abs then (x.count, x.target, x.signext)
  else
    let d := descAt s x.target
    (descDw d, descBase d, descSigned d)

/-- A load reads its memory: the planes it will write, and its status. -/
def fetchLoad (s : State) (x : Xfer) : State × List Plane × Nat :=
  let (w, _, signed) := xferShape s x
  let (s, answers) := spaceAnswers s x
  let side : Bool := decide (x.space = 2)
  let hit := if answers then damagedIn s x else []
  let s := if x.space = 0 then snoopWindow s x else s
  let s := hit.foldl (fun s p => readWord s side p.1) s
  let (s, planes) := fetchPlanes s x signed answers w
  let bad := !answers || hit.any fun p => decide (p.2 = .uncorrectable)
  (s, planes, if bad then 5 else 0)

/-- A load writes its planes, and the live width that its completion will commit. Where it covers only part of the
PEs and the variable stood below its declared width, the values of the other PEs become unspecified (R224). -/
def writeLoad (s : State) (x : Xfer) (planes : List Plane) : State × Option (Nat × Nat) :=
  let (w, base, signed) := xferShape s x
  let part : Bool := !x.abs && !x.full && decide (descLw (descAt s x.target) ≠ w)
  let s := loadPlanes s x base planes
  let s := if part then (List.range w).foldl (fun s i => spoilPlane s (base + i) (~~~ x.window)) s else s
  (s, if x.abs then none else some (x.target, if x.full then planesWidth s signed base w else w))

/-! ## A store (R215, R230) -/

/-- Source planes of a store, low first, read through the descriptor with extension; whether a word was
uncorrectable. -/
def storePlanes (s : State) (x : Xfer) : Nat → State × List Plane × Bool
  | 0 => (s, [], false)
  | n + 1 =>
    let (s, l, bad) := storePlanes s x n
    let src : Source :=
      if x.abs then .plane (x.target + n)
      else
        let d := descAt s x.target
        if descLw d ≤ n then extension d else .plane (descBase d + n)
    match src with
    | .value v => (s, l ++ [v], bad)
    | .plane p =>
      let worse := (damagedWords s p x.window).any fun q => decide (q.2 = .uncorrectable)
      let (s, v) := planeReadIn s p x.window
      (s, l ++ [v], bad || worse)

/-- The container that PE (r, c) stores: bits of its planes, then the extension. -/
def storedElem (planes : List Plane) (nbits : Nat) (signed : Bool) (pe : Nat) : Nat :=
  let v := (planes.zipIdx).foldl (fun a p => if p.1.getLsbD pe then a ||| 1 <<< p.2 else a) 0
  let top : Bool := match planes.getLast? with | some p => p.getLsbD pe | none => false
  if signed ∧ top then v ||| (2 ^ nbits - 2 ^ planes.length) else v

/-- Put a value into the container of element (j, i); a bit is merged into its byte (R215). -/
def pokeElem (s : State) (x : Xfer) (j i v : Nat) : State :=
  let a := x.base + x.elemAddr j i
  if x.cont = 0 then
    let old := (memByte s a).toNat
    let keep := old &&& (255 - 2 ^ (i % 8))
    pokeBytes s a [BitVec.ofNat 8 (keep ||| (v % 2) <<< (i % 8))]
  else pokeBytes s a (bytesOf v x.size)

/-- Write element (j, i), unless the request that carries it is not performed. -/
def writeElem (s : State) (x : Xfer) (stops : Nat → Bool) (planes : List Plane) (signed : Bool) (j i : Nat) : State :=
  if stops (x.base + x.elemAddr j i) then s
  else pokeElem s x j i (storedElem planes x.bitsOf signed ((x.r0 + j) * 1024 + x.c0 + i))

/-- The Pilots' reservation goes where a container of the window touches it (R330, R405). -/
def dropReservation (s : State) (x : Xfer) : State :=
  match s.plt.resv with
  | some b => if x.meets (64 * b) 64 then { s with plt := { s.plt with resv := none } } else s
  | none => s

/-- The window's containers cover n bytes at a module address. -/
def Xfer.covers (x : Xfer) (a n : Nat) : Bool := (rangeFrom a n).all fun b => x.meets b 1

/-- The first byte of the run of covered bytes that ends at byte `a` and starts within k bytes before it. -/
def Xfer.runStart (x : Xfer) (a : Nat) : Nat → Nat
  | 0 => a
  | k + 1 => if x.meets (a - 1) 1 then x.runStart (a - 1) k else a

/-- The first byte of the request to Bank 3 that carries byte `a` of a store: a 64-byte block whose every byte the store
writes is one request, and the interface splits any other into requests of 1 to 8 bytes, which the model takes as the runs
of covered bytes within each 8-byte word (R393, DESIGN CHOICE, log 197). -/
def Xfer.request (x : Xfer) (a : Nat) : Nat :=
  if x.covers (64 * (a / 64)) 64 then 64 * (a / 64) else x.runStart a (a % 8)

/-- The requests to Bank 3 of a store. -/
def Xfer.requests (x : Xfer) : List Nat :=
  ((List.range x.h).flatMap fun j =>
    (List.range x.wn).map fun i => x.request (x.base + x.elemAddr j i)).eraseDups

/-- How often Bank 3 answers COLLIDED to the request at byte a: while user logic may write the bank through its home
port, a free value, four sends at most (R391, R421). -/
def storeHits (free a : Nat) : Nat := min 4 (free / 8 ^ (a % 0x800000) % 8)

/-- User logic may write the bank that a transfer stores to. -/
def mayCollide (s : State) (x : Xfer) : Bool := decide (x.space = 2) && anyRuns s

/-- The Loader's requests to Bank 3 meet their COLLIDED answers (R421). -/
def collideStore (s : State) (x : Xfer) : State :=
  if mayCollide s x then
    x.requests.foldl (fun t a => collideTimes t 3 a (storeHits (freeNat s) a)) (usedFree s)
  else s

/-- The requests whose fourth send collides: none of their bytes is stored. -/
def collidedRequests (s : State) (x : Xfer) : List Nat :=
  if mayCollide s x then x.requests.filter fun a => decide (storeHits (freeNat s) a = 4) else []

/-- The request of a store that carries byte `a` is not performed: it collided four times, or the merge read of a word in
it was uncorrectable (R390, R398, R421). A request to Bank 3 that covers part of a word lies in that word; one to module
DRAM or Bank 1 is a 64-byte block (R228, R393). -/
def Xfer.stops (x : Xfer) (lost : List Nat) (refused : List (Nat × Damage)) (a : Nat) : Bool :=
  (!lost.isEmpty && decide (x.request a ∈ lost)) ||
    refused.any fun p => if x.space = 2 then decide (p.1 = a / 8) else decide (p.1 / 8 = a / 64)

/-- Some container that the store writes lies in word w. -/
def Xfer.writesWord (x : Xfer) (stops : Nat → Bool) (w : Nat) : Bool :=
  x.anyElem fun o => decide ((x.base + o) / 8 = w) && !stops (x.base + o)

/-- A store moves its data. Where the containers of two elements overlap, the spec does not say which of them the
bytes hold: the element of the later row, then of the later column (DESIGN CHOICE, log 197). The Pilots' reservation
goes where a container touches it (R330, R405). -/
def moveStore (s : State) (x : Xfer) : State × Nat :=
  let (w, _, signed) := xferShape s x
  let (s, planes, bad) := storePlanes s x (min w x.bitsOf)
  let (s, answers) := spaceAnswers s x
  if answers = false then (s, 5)
  else
    let side : Bool := decide (x.space = 2)
    let hit := damagedIn s x
    let s := if x.space = 0 then snoopWindow s x else s
    let refusedWords := hit.filter fun p => decide (p.2 = .uncorrectable) && !x.coversWord p.1
    let lost := collidedRequests s x
    let s := collideStore s x
    let stops := x.stops lost refusedWords
    let s := hit.foldl (fun s p => if x.coversWord p.1 then s else eccEvent s p.1 p.2 side) s
    let s := (hit.filter fun p => x.writesWord stops p.1).foldl (fun s p => freshWord s p.1) s
    let s := dropReservation s x
    let s := (List.range x.h).foldl (fun s j =>
      (List.range x.wn).foldl (fun s i => writeElem s x stops planes signed j i) s) s
    (s, if bad || !refusedWords.isEmpty || !lost.isEmpty then 5 else 0)

/-! ## Checkpoint and restore (R233, R234) -/

/-- A write of whole words to module DRAM on the Loader's own channel. -/
def spanWrite (s : State) (a : Nat) (bs : List Byte) : State :=
  let n := bs.length
  let s := loseReservation (snoop s a n) a n
  let s := { s with mem := { s.mem with
    damage := s.mem.damage.filter fun p => !(covers a n p.1),
    wb := s.mem.wb.filter fun w => !(covers a n w) } }
  pokeBytes s a bs

/-- A read of whole words of module DRAM on the Loader's own channel, and whether one was uncorrectable. -/
def spanRead (s : State) (a n : Nat) : State × Bool × List Byte :=
  let hit := s.mem.damage.filter fun p => covers a n p.1
  let s := hit.foldl (fun s p => readWord s false p.1) (snoop s a n)
  (s, hit.any fun p => decide (p.2 = .uncorrectable), memBytes s a n)

/-- Bytes of one plane. -/
def planeSize : Nat := 131072

/-- Copy planes to the checkpoint area, from its p-th image on. At which instant of the checkpoint the Loader reads a
plane is not said: all are read together, when it completes (DESIGN CHOICE, log 198). -/
def copyPlanes (s : State) (base : Nat) : List Nat → Nat → State
  | [], _ => s
  | p :: t, i =>
    let (s, v) := planeRead s p
    copyPlanes (spanWrite s (base + i * planeSize) (bytesOf v.toNat planeSize)) base t (i + 1)

/-- The live widths of all descriptors, one byte each. -/
def liveWidths (s : State) : List Byte := (List.range 1024).map fun n => BitVec.ofNat 8 (descLw (descAt s n))

/-- Write planes back from the checkpoint area; whether each was clean. A plane that was not written cleanly
is unspecified (R513). -/
def restorePlanes (s : State) (base : Nat) : List Nat → Nat → State × Bool
  | [], _ => (s, true)
  | p :: t, i =>
    let (s, bad, bs) := spanRead s (base + i * planeSize) planeSize
    let v : Plane := if bad then freePlane s else BitVec.ofNat peCount (numOf bs)
    let s := if bad then usedFree s else s
    let (s, ok) := restorePlanes (planeWrite s p v allPes).1 base t (i + 1)
    (s, ok && !bad)

/-- Write the live widths back into their descriptors; one that R98 refuses leaves its entry (R234). -/
def restoreWidths (s : State) (bs : List Byte) : State :=
  (bs.zipIdx).foldl (fun s b => writeDesc s b.2 (descWithLw (descAt s b.2) (b.1.toNat % 128))) s

/-! ## Acceptance and reports -/

/-- Status code of a transfer's completion (R282). -/
def transferSc (status : Nat) : Nat :=
  match status with
  | 0 => 0
  | 5 => 9
  | 6 => 10
  | _ => 7

/-- A transfer's status is recorded and goes to its submitter (R216, R231). -/
def reportTransfer (s : State) (t : Transfer) (status : Nat) : State :=
  let x := Xfer.of t.blk
  let last (s : State) : State := setReg s Reg.ldrLast (fld x.xid 16 ||| fld status 0)
  let s := ldrErr s status
  match t.owner with
  | .timetable sail pass idx =>
    if status = 6 then s
    else timetableReport (last s) sail pass idx (decide (status = 0)) (BitVec.ofNat 4 status)
  | .firmware =>
    let s := last s
    { s with plt := { s.plt with ldrReq := true } }
  | .queue qp pos =>
    complete (last s) qp.toNat pos (transferSc status) status (BitVec.ofNat 32 x.xid)

/-- The queue of 32 has room (R225, R226). -/
def loaderRoom (s : State) : Bool := decide (s.ldr.queue.length < 32)

/-- A transfer is submitted where the queue has room: checked, and queued or refused at once (R216, R225). -/
def acceptTransfer (s : State) (t : Transfer) : State :=
  let st := checkTransfer s (Xfer.of t.blk) t.load
  if st ≠ 0 then reportTransfer s t st
  else updLdr s fun l => { l with queue := l.queue ++ [t] }

/-! ## A transfer that is cut short (R231) -/

/-- Planes and memory at this instant. -/
def snapshot (s : State) : Snapshot := { planes := s.arr.planes, bytes := s.mem.bytes }

/-- PE rows of a chunk of element width w (R218). -/
def chunkRows (w : Nat) : Nat := min 64 (256 / (([1, 2, 4, 8, 16, 32].find? fun n => decide (w ≤ n)).getD 64))

/-- The PEs of the chunks, of k rows each, whose bit in f is set. -/
def chunkMask (f k : Nat) : Plane :=
  BitVec.ofNat peCount ((List.range (1024 / k)).foldl (fun p c =>
    if f.testBit c then p ||| (2 ^ (1024 * k) - 1) <<< (1024 * k * c) else p) 0)

/-- Plane i of an absolute load that is cut: each of its chunks is finished or was never written, which is a free
value; what has changed since the data moved stays as it is. -/
def cutPlane (s : State) (x : Xfer) (r : Running) (k n : Nat) : State :=
  let old := storeGet 0 r.before.planes n
  let new := storeGet 0 r.after.planes n
  let now_ := planeBits s n
  let back := chunkMask (freeNat s) k &&& x.window &&& ~~~ (now_ ^^^ new)
  updArr (usedFree s) fun a => { a with planes := storePut 0 a.planes n (mergePlane back old now_) }

/-- One byte of a store that is cut: stored, or as before, which is a free value; a byte changed since by another
requester stays as it is. -/
def cutByte (r : Running) (a : Nat) (s : State) : State :=
  let new := storeGet 0 r.after.bytes a
  if memByte s a = new ∧ freeNat s % 2 = 1 then pokeBytes (usedFree s) a [storeGet 0 r.before.bytes a] else usedFree s

/-- The bytes of the containers of element (j, i). -/
def Xfer.elemBytes (x : Xfer) (j i : Nat) : List Nat := rangeFrom (x.base + x.elemAddr j i) x.size

/-- A store that is cut. -/
def cutStore (s : State) (x : Xfer) (r : Running) : State :=
  (List.range x.h).foldl (fun s j => (List.range x.wn).foldl (fun s i =>
    (x.elemBytes j i).foldl (fun s a => cutByte r a s) s) s) (dropReservation s x)

/-- The running transfer is discarded: it has finished some chunk planes and not begun others. A variable's values
are then unspecified, and its descriptor stands as before (R231). -/
def cutTransfer (s : State) (r : Running) : State :=
  let x := Xfer.of r.tr.blk
  let (w, base, _) := xferShape s x
  if x.empty then s
  else if r.tr.load then
    if x.abs then (List.range w).foldl (fun s i => cutPlane s x r (chunkRows w) (base + i)) s
    else (List.range w).foldl (fun s i => spoilPlane s (base + i) allPes) s
  else cutStore s x r

/-- A queued transfer is discarded: the values of a variable load's target become unspecified (R231). -/
def dropQueued (s : State) (t : Transfer) : State :=
  let x := Xfer.of t.blk
  let (w, base, _) := xferShape s x
  if t.load = false ∨ x.abs ∨ x.empty ∨ descValid (descAt s x.target) = false then s
  else (List.range w).foldl (fun s i => spoilPlane s (base + i) allPes) s

/-- A fault stop discards the running transfer and the queue, and cuts a checkpoint or restore short
(R231, R235). What the checkpoint area then holds is not said: it stands as before the checkpoint (DESIGN CHOICE,
log 198). -/
def discardTransfers (s : State) : State :=
  let all := (s.ldr.run.map (·.tr)).toList ++ s.ldr.queue
  let s := match s.ldr.run with | some r => cutTransfer s r | none => s
  let s := s.ldr.queue.foldl dropQueued s
  let s := updLdr s fun l => { l with queue := [], run := none, ckpt := none, restore := none }
  all.foldl (fun s t => reportTransfer s t 6) s

end Sys2Proof.Machine
end

