-- ==== Sys2Proof/Machine/PilotCore.lean ====
section
/-!
DEFINITION. The Pilot pair's shared operations: registers and results in flight (R306, R322, R348–R353), taking
an exception, an interrupt or an alarm and the return from it (R364–R370), interrupt lines (R372), halts (R560)
and the watchdog's count (R378–R380).
-/
namespace Sys2Proof.Machine

/-- A change of the Pilots' state. -/
def updPlt (s : State) (f : PilotState → PilotState) : State := { s with plt := f s.plt }

/-! ## General registers and results in flight -/

/-- A general register; g0 reads 0 (R306). -/
def gprAt (s : State) (r : BitVec 5) : Word := if r = 0 then 0 else s.plt.gpr[r.toNat]'r.isLt

/-- Write a general register; a write to g0 is discarded (R306). -/
def setGpr (s : State) (r : BitVec 5) (v : Word) : State :=
  if r = 0 then s else updPlt s fun p => { p with gpr := p.gpr.set r.toNat v r.isLt }

/-- Several writes, in order. -/
def setGprs (s : State) (l : List (BitVec 5 × Word)) : State := l.foldl (fun s p => setGpr s p.1 p.2) s

/-- A busy iterative unit will write the register (R322). -/
def unitOwns (s : State) (r : BitVec 5) : Bool :=
  s.plt.flights.any fun f => (decide (f.kind = .mul) || decide (f.kind = .div)) && f.writes.any fun p => decide (p.1 = r)

/-- An instruction's read of a source register: a destination of a busy iterative unit is a free value (R322). -/
def readGpr (s : State) (r : BitVec 5) : State × Word :=
  if r ≠ 0 ∧ unitOwns s r then (usedFree s, freeWord s) else (s, gprAt s r)

/-- Set FLAGS bits of FCSR (R311). -/
def raiseFlags (s : State) (fl : BitVec 6) : State := updPlt s fun p => { p with fcsr := p.fcsr ||| fl.zeroExtend 32 }

/-- A result in flight is written. -/
def landFlight (s : State) (f : Flight) : State := raiseFlags (setGprs s f.writes) f.flags

/-- Of results written in the same PCLK, the one issued later stands, except that the divider's stands against
the multiplier's (R324, R351). -/
def landAll (s : State) (l : List Flight) : State :=
  let divRegs := (l.filter fun f => decide (f.kind = .div)).flatMap fun f => f.writes.map (·.1)
  l.foldl (fun s f => landFlight s
    (if f.kind = .mul then { f with writes := f.writes.filter fun p => decide (p.1 ∉ divRegs) } else f)) s

/-- Some results come one step nearer; those that arrive are written. -/
def ageWhere (s : State) (t : Flight → Bool) : State :=
  let due := s.plt.flights.filter fun f => t f && decide (f.left ≤ 1)
  let rest := (s.plt.flights.filter fun f => !(t f && decide (f.left ≤ 1))).map fun f =>
    if t f then { f with left := f.left - 1 } else f
  landAll (updPlt s fun p => { p with flights := rest }) due

/-- An instruction issues: every result in flight comes one step nearer (R348). -/
def age (s : State) : State := ageWhere s fun _ => true

/-- PCLK pass without an issue: loads from Bank 0 wait for instructions, the units do not (R349). -/
def agePclk (s : State) : Nat → State
  | 0 => s
  | n + 1 => agePclk (ageWhere s fun f => decide (f.kind ≠ .load)) n

/-- Every result in flight is written: no latency is above 20 PCLK (R325, R350). -/
def drain (s : State) : Nat → State
  | 0 => s
  | n + 1 => drain (age s) n

/-- The waits of R325 and R350 have ended. -/
def drained (s : State) : State := drain s 20

/-- The unit of a kind is busy. -/
def unitBusy (s : State) (k : FlightKind) : Option Nat := (s.plt.flights.find? fun f => decide (f.kind = k)).map (·.left)

/-- An instruction for a unit that is busy holds the pipeline until the unit is free (R323, R353). -/
def awaitUnit (s : State) (k : FlightKind) : State :=
  match unitBusy s k with
  | some n => agePclk s (max n 1)
  | none => s

/-- WAITU, MFS and MTS of FCSR wait for the units (R325, R352): the most PCLK that one of them still needs. -/
def awaitUnits (s : State) (t : FlightKind → Bool) : State :=
  agePclk s ((s.plt.flights.filter fun f => t f.kind).foldl (fun n f => max n (max f.left 1)) 0)

/-- A result enters flight; with a latency of 1 PCLK it is written at once. -/
def launch (s : State) (f : Flight) : State :=
  if f.left = 0 then landFlight s f else updPlt s fun p => { p with flights := p.flights ++ [f] }

/-! ## Special registers -/

/-- ST (R310). -/
def stWord (s : State) : Word := flg s.plt.cy 8 ||| flg s.plt.ie 3 ||| s.plt.pl.zeroExtend 32

/-- ST loaded with its PL (R368). -/
def loadSt (s : State) (w : Word) : State :=
  updPlt s fun p => { p with cy := bit w 8, ie := bit w 3, pl := BitVec.ofNat 2 (bits w 1 0) }

/-- Save set n, 1 to 3. -/
def saveSet (s : State) (n : Nat) : SaveSet :=
  if n = 1 then s.plt.save1 else if n = 2 then s.plt.save2 else s.plt.save3

/-- Store save set n. -/
def putSaveSet (s : State) (n : Nat) (x : SaveSet) : State :=
  updPlt s fun p => if n = 1 then { p with save1 := x } else if n = 2 then { p with save2 := x } else { p with save3 := x }

/-! ## Taking an exception (R364–R370) -/

/-- The Warden holds the module until LOAD (R271, R492, R516). -/
def holdModule (s : State) : State :=
  let s := updWdn (dropHealthyForGood s) fun w => { w with held := true }
  holdStop { s with helm := askHold s.helm, que := { s.que with aerInternal := true } }

/-- An exception at level 3 (R364). -/
def pilotFault (s : State) (code : Nat) : State :=
  let s := updPlt s fun p => { p with frozen := true }
  holdModule (logEntry s 8 0x11 0 (fld code 0))

/-- SAVE_CAUSE (11, Cause codes). -/
def causeWord (code detail : Nat) (wr half2 int : Bool) : Word :=
  flg int 31 ||| flg half2 30 ||| flg wr 29 ||| fld detail 8 ||| fld code 0

/-- Entry to level t (R366): `savePc`, `cause` and `val` fill its save set, and fetch continues at its vector. -/
def enterLevel (s : State) (t : Nat) (savePc cause val : Word) (interrupt : Bool) : State :=
  let s := drained s
  let s := putSaveSet s t { pc := savePc, st := stWord s, rsp := s.plt.rsp, cause := cause, val := val }
  let vec : Word := (s.plt.vbase &&& 0xFFFFF000) + BitVec.ofNat 32 (0x100 * t + if interrupt then 0x80 else 0)
  let s := { s with dbg := { s.dbg with skipIbp := false } }
  updPlt s fun p => { p with pl := BitVec.ofNat 2 t, ie := false, resv := none, pc := vec, fq := [], idle := false }

/-- A synchronous exception at the current level (R364). -/
def raiseAt (s : State) (code detail : Nat) (wr half2 : Bool) (savePc val : Word) : State :=
  if s.plt.pl = 3 then pilotFault s code
  else enterLevel s (s.plt.pl.toNat + 1) savePc (causeWord code detail wr half2 false) val false

/-- An exception of the instruction at pc. -/
def raiseHere (s : State) (code detail : Nat) (val : Word) : State := raiseAt s code detail false false s.plt.pc val

/-! Cause codes (R370). -/
namespace Cause
def illins : Nat := 1
def priv : Nat := 2
def align : Nat := 3
def prot : Nat := 4
def rstack : Nat := 5
def buserr : Nat := 6
def trap : Nat := 7
def brk : Nat := 8
def badret : Nat := 9
def fpe : Nat := 0x0A
def den : Nat := 0x0B
def alarm : Nat := 0x10
end Cause

/-- BUSERR DETAIL of a response (R370, R421). -/
def busDetail (r : Resp) : Nat :=
  match r with
  | .dead => 1
  | .unmapped => 2
  | .dataerr => 3
  | .collided => 4
  | .timeout => 5
  | _ => 2

/-! ## Interrupt lines and alarms (R365, R372) -/

/-- GW_RX holds a word, or GW_TX is empty with its interrupt enabled (R372, R569). -/
def gangwayLine (s : State) : Bool := s.dbg.gwRxFull || (!s.dbg.gwTxFull && getFlag s Reg.gwStat 5)

/-- Line k is pending (R372). -/
def linePending (s : State) (k : Nat) : Bool :=
  match k with
  | 0 => s.plt.recReq || !s.ttb.ntf.isEmpty
  | 1 => !s.helm.notifyQ.isEmpty
  | 2 => !s.helm.fpq.isEmpty
  | 3 => !s.que.mail.isEmpty
  | 4 => s.plt.ldrReq
  | 5 => !s.flt.log.isEmpty
  | 6 => decide (reg s Reg.fryEvt &&& reg s Reg.fryEvtEn ≠ 0)
  | 7 => decide (reg s Reg.fabEvt &&& reg s Reg.fabEvtEn ≠ 0)
  | 8 => gangwayLine s
  | 9 => s.plt.wdogStage
  | _ => false

/-- PLT_IRQ_PEND. -/
def linesWord (s : State) : Word := (List.range 10).foldl (fun w k => w ||| flg (linePending s k) k) 0

/-- Line k is enabled; line 9 follows the watchdog. -/
def lineEnabled (s : State) (k : Nat) : Bool := if k = 9 then s.plt.wdogEn else getFlag s Reg.pltIrqEn k

/-- The level of line k. -/
def lineLevel (s : State) (k : Nat) : Nat := getField s Reg.pltIrqLvl (2 * k + 1) (2 * k)

/-- Line k is taken (R365). -/
def lineTakeable (s : State) (k : Nat) : Bool :=
  linePending s k && lineEnabled s k &&
    (decide (s.plt.pl.toNat < lineLevel s k) || (decide (s.plt.pl.toNat = lineLevel s k) && s.plt.ie))

/-- The line that goes first: the highest level, then the lowest number (R372). -/
def firstLine (s : State) : Option Nat :=
  let l := (List.range 10).filter (lineTakeable s)
  match l.find? (fun k => decide (2 ≤ lineLevel s k)) with
  | some k => some k
  | none => l.head?

/-- A Warden alarm is taken below level 3 (R365). -/
def firstAlarm (s : State) : Option (BitVec 8) := if s.plt.pl = 3 then none else s.plt.alarms.head?

/-- The next instruction to execute: IDLE leaves SAVE_PC on the instruction after it (R370). -/
def resumePc (s : State) : Word := if s.plt.idle then s.plt.pc + 4 else s.plt.pc

/-- Take an alarm at level 3 (R365, R370). -/
def takeAlarm (s : State) (d : BitVec 8) : State :=
  enterLevel (updPlt s fun p => { p with alarms := p.alarms.erase d }) 3 (resumePc s)
    (causeWord Cause.alarm d.toNat false false false) 0 false

/-- Take line k at its level (R365, R370). -/
def takeLine (s : State) (k : Nat) : State :=
  enterLevel s (lineLevel s k) (resumePc s) (causeWord (0x40 + k) 0 false false true) 0 true

/-- The alarm, or the line if interrupts may be taken, that falls due at this boundary. -/
def takeDue (s : State) (irq : Bool) : Option State :=
  match firstAlarm s with
  | some d => some (takeAlarm s d)
  | none => if irq then (firstLine s).map (takeLine s) else none

/-! ## Halts and the watchdog -/

/-- The Pilots exist: the HX1 runs, the boot has started them, and the Warden does not freeze them. -/
def pilotsLive (s : State) : Bool := s.hx1 && s.plt.started && !s.plt.frozen

/-- Instructions issue. -/
def pilotsRun (s : State) : Bool := pilotsLive s && !s.plt.halted

/-- The watchdog's count in µs (R378, R380). -/
def wdogLeft (s : State) : Nat :=
  if s.plt.wdogEn ∧ s.plt.halted = false then s.plt.wdogCnt - (s.now - s.plt.wdogAt) / 1000 else s.plt.wdogCnt

/-- Reload the watchdog and clear STAGE (R379, R380). -/
def wdogReload (s : State) : State :=
  updPlt s fun p =>
    { p with wdogStage := false, wdogCnt := (reg s Reg.pltWdogReload).toNat, wdogAt := s.now }

/-- The Pilots halt at this boundary with a DBG_STAT.CAUSE (R560); what they had fetched is fetched again. -/
def haltNow (s : State) (cause : BitVec 3) : State :=
  let left := wdogLeft s
  let s := updPlt (drained s) fun p =>
    { p with halted := true, resv := none, fq := [], wdogCnt := left, wdogAt := s.now }
  { s with dbg := { s.dbg with cause := cause } }

/-- HALTREQ: an entry that falls due at the same boundary is made first (R560). -/
def haltRequest (s : State) : State :=
  if s.plt.halted then s
  else if pilotsLive s then haltNow ((takeDue s true).getD s) 1
  else haltNow s 1

/-- The Pilots resume: the watchdog reloads, and the instruction at an instruction breakpoint or a BRK does not
halt them again (R380, R562, R563). -/
def resumePilots (s : State) : State :=
  if s.plt.halted then
    let s := updPlt (wdogReload s) fun p =>
      { p with halted := false, pc := if s.dbg.onBrk then p.pc + 4 else p.pc }
    { s with dbg := { s.dbg with skipIbp := !s.dbg.onBrk && (s.dbg.skipIbp || decide (s.dbg.cause = 3)), onBrk := false } }
  else s

/-! ## Register accesses that do not take effect (R25, R358, R359, R421) -/

/-- What a writer's access to a register leaves when it does not take effect. A running Pilot takes PROT LEVEL where
its level refuses the access and BUSERR where the network does; the host, the debugger and user logic leave what the
network leaves, and a write above the session's level sets DENIED (R558); an access that the register ignores leaves
nothing. -/
def refuseAccess (s : State) (wr : Writer) (off : Nat) (isWrite : Bool) : State :=
  let (t, r) := nocGate s (writerNi wr) (regAddr off)
  if s.hx1 = false then s
  else match wr with
  | .pilot =>
    let ea : Word := BitVec.ofNat 32 (0xF0000000 + off)
    if pilotsRun s = false then s
    else if mmioRefuses s.plt.pl.toNat isWrite off then raiseAt s Cause.prot 2 isWrite false s.plt.pc ea
    else if r = .ok then s
    else raiseAt t Cause.buserr (busDetail r) isWrite false s.plt.pc ea
  | .host => if s.wdn.held ∨ r = .ok then s else t
  | .debug =>
    if s.hx1 = false ∨ debugLevel s = 0 then s
    else if isWrite ∧ debugLevel s < 2 then setFlag s Reg.dbgStat 7
    else if r = .ok then s
    else { t with dbg := { t.dbg with resp := BitVec.ofNat 4 r.code } }
  | .fabric => if anyRuns s = false ∨ r = .ok then s else t

/-- A write of a register that acts: it takes effect, or is refused. -/
def onWrite (s : State) (wr : Writer) (off : Nat) (act : State → State) : State :=
  if writerMay s wr off then act s else refuseAccess s wr off true

end Sys2Proof.Machine
end

