-- ==== Sys2Proof/Machine/Helm.lean ====
section
/-!
DEFINITION. The Helm's commands: microwords, reductions, the probe, kernels and the patch window (03, 04, 05,
06). LANDING stands in Landing.lean.
-/
namespace Sys2Proof.Machine

/-- The outcome type of a command. -/
abbrev Result : Type := Host.Outcome State Fault Refusal

/-! ## Microwords -/

/-- A kernel stops before a microword that is not issued: its flag is set at once, outstanding installation-scope
results are discarded, and module-scope work completes before KERNEL_END reports the status (R117). For ILLSEQ and
STACK the spec says nothing of outstanding work: the model treats it as at a parity error (DESIGN CHOICE, log 159). -/
def stopBefore (s : State) (k : KernelCtx) (err : Word) (status : Nat) : State :=
  let s := helmErr (updHelm s discardInstallation) err
  if outstanding s.helm then setRun s { k with halt := some status } else endRun s k status

/-- A microword that no stall holds issues, unless its CALL or RET fails (R80). -/
def issueOr (s : State) (k : KernelCtx) (m : Micro) (body : State) : State :=
  if stackFails k m then stopBefore s k hSTKERR 2 else body

/-- The next microword, when its SPEC satisfies a test: an ILLEGAL or reserved SEQ stops the kernel (R78), and a stall
holds it (R64). The debugger's STEP issues under its halt (R567). -/
def whenFree (s : State) (k : KernelCtx) (f : Micro → Bool) (body : Micro → State) : State :=
  let m := fetched s k
  if parityFails s k ∨ f m = false then s
  else if seqIllegal m then stopBefore s k hILLSEQ 1
  else if stalled s k m then s
  else body m

/-- Issue the next microword when its SPEC satisfies a test; the stack test comes at its issue, after every stall
(R80, R81, R141). -/
def issueNext (s : State) (k : KernelCtx) (f : Micro → Bool) (body : Micro → State) : State :=
  whenFree s k f fun m => issueOr s k m (body m)

/-- Act for the kernel that may issue, outside a debug halt. -/
def forKernel (s : State) (body : KernelCtx → State) : State :=
  match mayIssue s with
  | none => s
  | some k => if debugHolds s.helm then s else body k

/-- Issue outside a debug halt. -/
def issueWhen (s : State) (f : Micro → Bool) (body : KernelCtx → Micro → State) : State :=
  forKernel s fun k => issueNext s k f (body k)

/-- MICROWORD_ISSUE (R63–R91): a microword whose SPEC names no operation. -/
def execMicrowordIssue (s : State) : Result :=
  .next (issueWhen s (fun m => decide (m.spec = 0) || decide (6 < m.spec)) fun k m => issueWord s k m)

/-- ABAR (R92, R197, R198). -/
def execAbar (s : State) : Result :=
  .next (issueWhen s (fun m => decide (m.spec = 1)) fun k m => issueAbar s k m)

/-- HALOX (R93, R94, R448). -/
def execHalox (s : State) : Result :=
  .next (issueWhen s (fun m => decide (m.spec = 2)) fun k m => issueWord s k m)

/-- A HALOW microword begins: with a count that does nothing, or its wait over, it issues; on an absent side its
slots take FILL and it issues; otherwise it waits (R94, R450, R452). -/
def startHalow (s : State) (k : KernelCtx) (m : Micro) : State :=
  let d := dirSide m.dir
  if m.haloOk = false ∨ s.helm.waited then issueOr s k m (issueWord s k m)
  else if edgeOpen s d then
    updHelm s fun h => { h with halow := some ⟨d, m.halosel, m.count, s.now⟩, noSlot := NoSlot.zero }
  else
    let keys := haloKeys d m.halosel m.count
    let t := haloFill s d (keys.filter fun k => decide (k ∉ s.fry.fresh))
    issueOr s k m (issueWord (haloTake t keys) k m)

/-- HALOW (R92, R450, R452). -/
def execHalow (s : State) : Result :=
  .next (forKernel s fun k => whenFree s k (fun m => decide (m.spec = 3)) (startHalow s k))

/-- The waiting HALOW completes, and its microword issues unless another stall of R64 has come to hold it. One whose
CALL or RET fails now stops the kernel, and none of its fields act (R80). -/
def finishHalow (s : State) (w : HaloWait) : State :=
  let s := updHelm s fun h => { h with halow := none, waited := true }
  let t := haloTake s (haloKeys w.side w.first w.count)
  match s.helm.run with
  | none => t
  | some k =>
    let m := fetched s k
    if stalled s k m then t else issueOr s k m (issueWord t k m)

/-- A wait of the Helm may end: nothing holds it. -/
def waitOpen (s : State) : Bool :=
  s.hx1 && runs s && !s.helm.paused && !s.helm.held && (!s.helm.dbgHalt || s.helm.dbgStep)

/-- HALOW_COMPLETE (R446, R450, R452): every named slot is fresh; or EDGE traffic across the side has ended, so that the
slots that are not fresh take FILL, without a count (log 202). -/
def execHalowComplete (s : State) : Result :=
  .next <| match s.helm.halow with
    | none => s
    | some w =>
      let stale := (haloKeys w.side w.first w.count).filter fun k => decide (k ∉ s.fry.fresh)
      if waitOpen s = false then s
      else if stale = [] then finishHalow s w
      else if edgeOpen s w.side then s
      else finishHalow (haloFill s w.side stale) w

/-- HALOW_TIMEOUT (R451): FRY_TMO.HALO µs have passed, and so has the NCLK of that instant, in which an arrival would
still count (log 184). -/
def execHalowTimeout (s : State) : Result :=
  .next <| match s.helm.halow with
    | none => s
    | some w =>
      let keys := haloKeys w.side w.first w.count
      if waitOpen s ∧ edgeOpen s w.side ∧ keys.any (fun k => decide (k ∉ s.fry.fresh)) ∧
         w.since + 1000 * getField s Reg.fryTmo 7 0 < s.now then
        let s := haloFill s w.side (keys.filter fun k => decide (k ∉ s.fry.fresh))
        let s := fryEvent (flagPartial (countField s Reg.fryHalocnt 31 24 1)) 3
        finishHalow s w
      else s

/-- WIDTH_RESET (R95). -/
def execWidthReset (s : State) : Result :=
  .next (issueWhen s (fun m => decide (m.spec = 4)) fun k m => issueWord s k m)

/-- WIDTH_SET (R95). -/
def execWidthSet (s : State) : Result :=
  .next (issueWhen s (fun m => decide (m.spec = 5)) fun k m => issueWord s k m)

/-- NOTIFY (R92): it stalls while the notification queue is full. -/
def execNotify (s : State) : Result :=
  .next (issueWhen s (fun m => decide (m.spec = 6)) fun k m => issueWord s k m)

/-! ## Reductions, probes and commits -/

/-- Remove the first reduction that satisfies a test. -/
def dropFirst (l : List Reduction) (f : Reduction → Bool) : List Reduction := l.eraseP f

/-- An older reduction stands before this one: one of its own kind, or, before a global OR, one of installation
scope (R139, R143). -/
def waitsFor (r x : Reduction) : Bool :=
  decide (x.slot.isNone = r.slot.isNone) || (r.slot.isNone && x.inst.isSome)

/-- The reductions issued before which none that it must wait for is outstanding. -/
def completable : List Reduction → List Reduction → List Reduction
  | _, [] => []
  | older, r :: rest =>
    (if older.any (waitsFor r) then [] else [r]) ++ completable (older ++ [r]) rest

/-- The oldest outstanding reduction of a kind completes, when it is of module scope and nothing stands before it
(R137, R139, R143). -/
def completeLocal (s : State) (f : Reduction → Bool) : State :=
  match (completable [] s.helm.red).find? f with
  | none => s
  | some r =>
    if r.inst.isSome then s
    else takeReduction (updHelm s fun h => { h with red := dropFirst h.red f }) r r.value

/-- GLOBAL_OR_COMPLETE (R137). -/
def execGlobalOrComplete (s : State) : Result := .next (completeLocal s fun r => r.slot.isNone)

/-- CENSUS_COMPLETE (R137, R139). -/
def execCensusComplete (s : State) : Result := .next (completeLocal s fun r => r.slot.isSome)

/-- The combined value of an installation-scope reduction: the OR of the contributions, or their saturated sum
(R144, R456). -/
def combined (s : State) (r : Reduction) (k : Nat) : Nat :=
  let vs := (s.fry.contrib.filter fun c =>
    decide (c.sail = r.sail) && decide (c.k = k) && decide (c.isCensus = r.slot.isSome) &&
      decide (c.node ∉ excludedIn s r.sail)).map (·.value)
  match r.slot with
  | none => if r.value ≠ 0 ∨ vs.any (fun v => decide (v ≠ 0)) then 1 else 0
  | some _ => min (vs.foldl (· + ·) r.value) 2097151

/-- How many contributions of a node to the k-th reduction of a sailing are here. -/
def contributions (s : State) (node : BitVec 16) (sail : Sail) (k : Nat) : Nat :=
  (s.fry.contrib.filter fun c => decide (c.node = node) && decide (c.sail = sail) && decide (c.k = k)).length

/-- Every other member's contribution to the k-th reduction of a sailing is here (R456): as many of a node ID as modules
announce it (R434). -/
def allContributed (s : State) (sail : Sail) (k : Nat) : Bool :=
  (otherMembers s sail).all fun n => decide ((otherMembers s sail).count n ≤ contributions s n sail k)

/-- The installation-scope reductions that nothing stands before, oldest first, with their numbers (R139, R143). -/
def openInstallation (s : State) : List (Reduction × Nat) :=
  (completable [] s.helm.red).filterMap fun r => r.inst.map fun k => (r, k)

/-- An installation-scope reduction completes with the contributions of its own sailing that are here. -/
def finishInstallation (s : State) (r : Reduction) (k : Nat) : State :=
  let v := combined s r k
  let s := takeReduction (updHelm s fun h => { h with red := h.red.erase r }) r v
  updFry s fun f =>
    { f with contrib := f.contrib.filter fun c => decide (c.k ≠ k) || decide (c.sail ≠ r.sail) }

/-- The verdict of a sailing has arrived (R456). -/
def verdictHere (s : State) (sail : Sail) : Bool :=
  (match s.fry.verdict with
  | some (n, _) => decide (n = sail)
  | none => false) || s.fry.past.any fun v => decide (v.1 = sail)

/-- An installation-scope reduction has everything it waits for. -/
def installationDone (s : State) (x : Reduction × Nat) : Bool :=
  verdictHere s x.1.sail && allContributed s x.1.sail x.2

/-- INSTALLATION_REDUCTION_DONE (R456): every member's contribution and the verdict have arrived. -/
def execInstallationReductionDone (s : State) : Result :=
  .next <| match (openInstallation s).find? (installationDone s) with
    | none => s
    | some (r, k) => finishInstallation s r k

/-- PROBE_RESULT (R152): the oldest probe result reaches the tracker of its sequence. -/
def execProbeResult (s : State) : Result :=
  .next <| match s.helm.probes with
    | [] => s
    | r :: t =>
      updHelm (passDue s r.due) fun h =>
        { h with probes := t, commits := h.commits.map (·.take r),
                 run := h.run.map fun k => { k with track := k.track.map (·.take r) } }

/-- LIVE_WIDTH_COMMIT (R90, R151): the oldest closed sequence commits once its probes have returned. -/
def execLiveWidthCommit (s : State) : Result :=
  .next <| match s.helm.commits with
    | [] => s
    | c :: t =>
      if s.helm.probes.any (fun r => decide (r.seq = c.seq)) then s
      else
        let d := descAt s c.desc
        let s := updHelm (passDue s c.due) fun h => { h with commits := t }
        setDesc s c.desc (descWithLw d (probeWidth d c.high))

/-! ## Landings: the resume of a preempted kernel, and the gap -/

/-- Spill planes of the latches, in the order C, D, X, M, Q (R114). -/
def spillBase : Nat := 4080

/-- KERNEL_RESUME (R114): once no urgent kernel waits, the latches and the context come back. -/
def execKernelResume (s : State) : Result :=
  .next <| match s.helm.preempted with
    | none => s
    | some k =>
      if s.hx1 ∧ runs s ∧ s.helm.run = none ∧ s.helm.uq = [] ∧ s.helm.held = false ∧ s.helm.dbgHalt = false ∧
         s.helm.paused = false ∧ s.flt.repair = none then
        let (s, _, _) := homeRead s 1 0x7FFF00 256
        let (s, q) := planeRead s (spillBase + 4)
        let (s, x) := planeRead s (spillBase + 2)
        let (s, d) := planeRead s (spillBase + 1)
        let (s, c) := planeRead s spillBase
        let (s, m) := planeRead s (spillBase + 3)
        updHelm (beginRun (setLatches s c d x m q) { k with stop := false }) fun h =>
          { h with preempted := none, stopReq := k.stop }
      else s

/-- LANDLATE (R111): the count since the last landing, stalls included, passes HLM_LSPAN.LIMIT. -/
def execLandlate (aclk : Nat) (s : State) : Result :=
  let limit := getField s Reg.hlmLspan 15 0
  .next (if s.hx1 ∧ s.helm.run.isSome ∧ limit ≠ 0 ∧ limit < aclk ∧ gapNow s ≤ aclk ∧ s.helm.gapLate = false then
    helmErr (updHelm s fun h => { h with gap := aclk, gapLate := true }) hLANDLATE
  else s)

/-- The fetched microword fails parity: it stays so until the bad groups are written again. -/
def markParity (s : State) (n : Nat) : State :=
  updHelm s fun h =>
    { h with parityBad := if h.parityBad.any (fun p => decide (p.1 = n)) then h.parityBad else (n, 0xFF) :: h.parityBad }

/-- CONTROL_STORE_PARITY_ERROR (R117): the fetched microword fails parity; the flag and the report come at once, and
the kernel stops, its status waiting for its module-scope work alone. -/
def execControlStoreParityError (s : State) : Result :=
  .next <| match mayIssue s with
    | none => s
    | some k => stopBefore (report (markParity s k.next.toNat) 0x0A 0 (k.next.zeroExtend 32)) k hPARITY 5

/-! ## Kernels -/

/-- The block staged in eight registers from `base`. -/
def stagedBlock (s : State) (base : Nat) : Block32 :=
  BitVec.ofNat 256 ((List.range 8).foldl (fun v i => v + (reg s (base + 4 * i)).toNat * 2 ^ (32 * i)) 0)

/-- The queue that a kernel needs has room (R103, R104). -/
def helmRoom (s : State) (k : KernelReq) : Bool :=
  if k.urgent then decide (s.helm.uq.length < 8) else decide (s.helm.nq.length < 64)

/-- A kernel enters its queue. -/
def enqueueKernel (s : State) (k : KernelReq) : State :=
  updHelm s fun h => if k.urgent then { h with uq := h.uq ++ [k] } else { h with nq := h.nq ++ [k] }

/-- KERNEL_SUBMIT (R104, R108, R123): a firmware write to HLM_KSUB_GO. -/
def execKernelSubmit (wr : Writer) (s : State) : Result :=
  .next (onWrite s wr Reg.hlmKsubGo fun s =>
    let k := kernelOfBlock (stagedBlock s Reg.hlmKsub) .firmware
    if runs s = false then setReg s Reg.hlmKsubStat 2
    else if helmRoom s k = false then setReg s Reg.hlmKsubStat 1
    else enqueueKernel (setReg s Reg.hlmKsubStat 0) k)

/-- The context with which a kernel starts (R84, R105). R84 does not list the probe tracker: no sequence stands open
at the start of a kernel, whatever the kernel before it left (DESIGN CHOICE, log 160). -/
def startContext (k : KernelReq) : KernelCtx :=
  { req := k, next := k.entry, upc := 0, lc0 := 0, lc1 := 0, i0 := 0, i1 := 0, stack := [], gor := false,
    slots := Vector.replicate 16 0, track := none, fpev := false, ended := false, stop := false, halt := none }

/-- A kernel may start (R105, R108, R113, R119, R506). -/
def mayStart (s : State) : Bool :=
  s.hx1 && runs s && s.helm.run.isNone && !s.helm.held && !s.helm.dbgHalt && !getFlag s Reg.hlmPatch 1 &&
    s.flt.repair.isNone && !bistBusy s

/-- KERNEL_START (R105): the head of the urgent queue, or else of the normal queue; its start is a landing. -/
def execKernelStart (s : State) : Result :=
  .next (if mayStart s then
    match s.helm.uq, s.helm.nq with
    | k :: t, _ => updHelm (beginRun s (startContext k)) fun h => { h with uq := t }
    | [], k :: t =>
      if s.helm.preempted.isSome then s
      else updHelm (beginRun s (startContext k)) fun h => { h with nq := t }
    | [], [] => s
  else s)

/-- KERNEL_END (R106, R107, R199): with nothing outstanding, the report; after an END, the kernel-end barrier comes
first, which a fault stop that is ordered cuts short: LANDING takes the stop then (DEDUCED, log 37). A kernel that stopped
before its END reports the status of its stop (R78, R80, R117). -/
def execKernelEnd (s : State) : Result :=
  .next <| match s.helm.run with
    | none => s
    | some k =>
      if outstanding s.helm then s
      else match k.halt with
        | some status => endRun s k status
        | none =>
          if k.ended ∧ s.helm.held = false ∧ s.helm.paused = false ∧ stopOrdered s = none then
            let (s, k) := barrier s k k.upc true
            endRun s k (if k.fpev then 6 else 0)
          else s

/-- STOP (R110): HLM_CMD.STOP; it meets no kernel while none runs. -/
def execStop (wr : Writer) (s : State) : Result :=
  .next (onWrite s wr Reg.hlmCmd fun s => if s.helm.run.isSome then updHelm s fun h => { h with stopReq := true } else s)

/-- FLUSHQ (R106): HLM_CMD.FLUSHQ completes every unstarted normal-queue kernel with STOPPED. -/
def execFlushq (wr : Writer) (s : State) : Result :=
  .next (onWrite s wr Reg.hlmCmd fun s =>
    let l := s.helm.nq
    orderWaiting (l.foldl (fun s k => reportKernel s k 4 0) (updHelm s fun h => { h with nq := [] })))

/-! ## The patch window and events -/

/-- PATCH_REQUEST (R121): a write to HLM_PATCH; under GRANT one that clears REQ is ignored. -/
def execPatchRequest (wr : Writer) (val : Word) (s : State) : Result :=
  .next (onWrite s wr Reg.hlmPatch fun s =>
    let old := reg s Reg.hlmPatch
    if bit old 1 ∧ bit val 0 = false then s
    else setReg s Reg.hlmPatch (flg (bit old 2 && !bit val 2) 2 ||| flg (bit old 1) 1 ||| flg (bit val 0) 0))

/-- PATCH_GRANT (R119). -/
def execPatchGrant (s : State) : Result :=
  let v := reg s Reg.hlmPatch
  .next (if s.hx1 ∧ bit v 0 ∧ bit v 1 = false ∧ s.helm.run = none ∧ s.helm.preempted = none ∧ s.helm.nq = [] ∧
            s.helm.uq = [] ∧ s.ttb.ticked ∧ s.ttb.sentFor = some s.ttb.sail then
    setFlag s Reg.hlmPatch 1
  else s)

/-- CRC-32C over the control store: 24 bytes of each microword in address order (R118). -/
def storeCrc (store : List (Nat × BitVec 192)) : Word :=
  ~~~ (List.range 32768).foldl (fun c n => crcRun c (bytesOf (storeGet 0 store n).toNat 24)) 0xFFFFFFFF

/-- HLM_PATCH_COMMIT (R120, R121). -/
def execHlmPatchCommit (wr : Writer) (s : State) : Result :=
  .next (onWrite s wr Reg.hlmPatchCommit fun s =>
    if getFlag s Reg.hlmPatch 1 = false then setReg s Reg.hlmPatchCstat 1
    else if storeCrc s.helm.store = reg s Reg.hlmPatchCrc then
      let s := setReg s Reg.hlmUcodeVer (reg s Reg.hlmPatchVer)
      let s := setReg s Reg.hlmUcodeCrc (reg s Reg.hlmPatchCrc)
      setReg (setField s Reg.hlmPatch 1 0 0) Reg.hlmPatchCstat 0
    else setReg s Reg.hlmPatchCstat 2)

/-- HLM_FPEV_POP (R209). -/
def execHlmFpevPop (wr : Writer) (s : State) : Result :=
  .next (onWrite s wr Reg.hlmFpevPop fun s => updHelm s fun h => { h with fpq := h.fpq.tail })

end Sys2Proof.Machine
end

