-- ==== Sys2Proof/Machine/Queue.lean ====
section
/-!
DEFINITION. The queue engine's commands: doorbells, fetch and dispatch, descriptors, admin commands, drains,
completions and events (09).
-/
namespace Sys2Proof.Machine

/-! ## Doorbells (R273, R275–R277) -/

/-- A refused doorbell: its QUE_ERR bit, and the count. -/
def refuseDoorbell (s : State) (k : Nat) : State := countField (setFlag s Reg.queErr k) Reg.queDberr 31 0 1

/-- The SQ tail takes a value (R273, R275). -/
def sqTail (s : State) (qp v : Nat) : State :=
  let p := pairOf s qp
  if p.sqSize = 0 then s
  else if p.sqSize ≤ v then refuseDoorbell s 1
  else setPair s qp { p with sqTail := v }

/-- The CQ head takes a value (R276). -/
def cqHead (s : State) (qp v : Nat) : State :=
  let p := pairOf s qp
  if p.cqSize ≤ v ∨ ringUsed p.cqHead p.cqTail p.cqSize < ringUsed p.cqHead v p.cqSize then refuseDoorbell s 1
  else setPair s qp { p with cqHead := v }

/-- A pair takes doorbells: it is neither FREE nor DRAINING, and its CREATE_QP completion has been written. -/
def doorbellsOpen (p : Pair) : Bool := decide (p.st ≠ .free) && decide (p.st ≠ .draining) && p.open_

/-- A BAR2 write to a doorbell (R277). -/
def bar2Doorbell (s : State) (qp : Nat) (act : State → State) : State :=
  let p := pairOf s qp
  if s.hx1 = false ∨ s.wdn.held then s
  else if doorbellsOpen p = false then refuseDoorbell s 2
  else if p.ctype = 2 ∨ p.ctype = 3 then refuseDoorbell s 3
  else act s

/-- SQ_TAIL_DOORBELL (R275): bits [31:16] are ignored. -/
def execSqTailDoorbell (qp : BitVec 16) (val : Word) (s : State) : Result :=
  .next (bar2Doorbell s qp.toNat fun s => sqTail s qp.toNat (bits val 15 0))

/-- CQ_HEAD_DOORBELL (R276). -/
def execCqHeadDoorbell (qp : BitVec 16) (val : Word) (s : State) : Result :=
  .next (bar2Doorbell s qp.toNat fun s => cqHead s qp.toNat (bits val 15 0))

/-! ## Fetch (R278, R292, R294, R299, R301) -/

/-- Held descriptors of a pair. -/
def heldCount (p : Pair) : Nat := (p.fetched.filter (·.held)).length

/-- The pair's ring lies in host memory. -/
def hostRing (p : Pair) : Bool := decide (p.ctype = 0) || decide (p.ctype = 1)

/-- A pair has a fetchable entry (R294, R299); in D3hot the engine fetches nothing (R301). -/
def fetchable (s : State) (p : Pair) : Bool :=
  decide (p.st = .active) && decide (p.sqSize ≠ 0) && decide (p.sqHead ≠ p.sqTail) && decide (heldCount p < 64) &&
    !s.que.d3

/-- The fetchable pairs of the pool at a priority, in rising order. -/
def fetchableAt (s : State) (prio : Nat) : List Nat :=
  (s.que.pairs.filter fun p => decide (p.1 ≠ 0) && decide (p.2.prio.toNat = prio) && fetchable s p.2).map (·.1)

/-- The pair that the engine serves next (R292): pair 0, else the highest priority, round-robin within it. -/
def nextServed (s : State) : Option Nat :=
  if fetchable s (pairOf s 0) then some 0
  else
    ([0, 1, 2, 3].map fun k => (k, fetchableAt s k)).findSome? fun (k, l) =>
      let last := storeGet 0 s.que.rr k
      (l.find? fun q => decide (last < q)).orElse fun _ => l.head?

/-- One turn serves a pair: the round robin of its priority moves on. -/
def served (s : State) (qp : Nat) : State :=
  if qp = 0 then s
  else updQue s fun q => { q with rr := storePut 0 q.rr (pairOf s qp).prio.toNat qp }

/-- Descriptors of `n` entries' bytes. -/
def splitEntries : Nat → List Byte → List Raw64
  | 0, _ => []
  | n + 1, bs => BitVec.ofNat 512 (numOf (bs.take 64)) :: splitEntries n (bs.drop 64)

/-- The entries of one read that are taken (R294): up to the first held one that finds the hold list full. -/
def takeEntries (held : Nat) (pos : Nat) : List (Raw64 × Bool) → List Fetched
  | [] => []
  | (d, bad) :: t =>
    if isHold d then
      if 64 ≤ held then [] else ⟨pos, d, true, bad⟩ :: takeEntries (held + 1) (pos + 1) t
    else ⟨pos, d, false, bad⟩ :: takeEntries held (pos + 1) t

/-- Entries that one read covers: up to 8, and to the end of the ring. -/
def readLength (p : Pair) : Nat :=
  min 8 (min (ringUsed p.sqHead p.sqTail p.sqSize) (p.sqSize - p.sqHead))

/-- The entries read join the pair, and its SQ head advances over those taken. -/
def joinPair (s : State) (qp : Nat) (l : List (Raw64 × Bool)) : State :=
  let p := pairOf s qp
  let got := takeEntries (heldCount p) p.taken l
  setPair s qp
    { p with fetched := p.fetched ++ got, taken := p.taken + got.length,
             sqHead := (p.sqHead + got.length) % p.sqSize }

/-- The i-th descriptor that stands in an SQ block, and whether a word of it fails parity (R476, R478). -/
def blockEntry (b : QBlock) (i : Nat) : Raw64 × Bool :=
  let ws := (b.words.drop (8 * i)).take 8
  (BitVec.ofNat 512 (numOf (ws.flatMap fun w => bytesOf w.1.toNat 8)), ws.any fun w => !w.2)

/-- A parity error of a block: PERR, and the event (R474, R478). -/
def blockParity (s : State) (n : Nat) : State :=
  report (fabEvent (setFlag s (Reg.fabQstat + 0x20 * n) 7) 5) 0x0E n 0

/-- A fetch from the SQ block of a FABRIC pair. -/
def fetchBlock (s : State) (qp : Nat) : State :=
  let p := pairOf s qp
  let n := p.client.toNat
  let b := blockQ s n
  let s := joinPair s qp ((List.range (readLength p)).map (blockEntry b))
  let took := (pairOf s qp).taken - p.taken
  let bad := ((List.range took).filter fun i => (blockEntry b i).2).length
  let s := setBlock s n { b with words := b.words.drop (8 * took) }
  (List.range bad).foldl (fun s _ => blockParity s n) s

/-- DESCRIPTOR_FETCH (R292): the engine's turn serves this pair. -/
def execDescriptorFetch (qp : BitVec 16) (resp : HostRead) (s : State) : Result :=
  let q := qp.toNat
  .next (if s.hx1 ∧ s.wdn.held = false ∧ getFlag s Reg.queCtl 0 ∧ nextServed s = some q then
    let s := served s q
    let p := pairOf s q
    if p.ctype = 3 then fetchBlock s q
    else if p.ctype = 2 then
      let n := readLength p
      match nocRead s 11 (p.sqBase.toNat + 64 * p.sqHead) (64 * n) with
      | (s, .ok, bs) => joinPair s q ((splitEntries n bs).map fun d => (d, false))
      | (s, _, _) => pairError s q
    else
      let s := readHost s p (p.sqBase.toNat + 64 * p.sqHead) (64 * readLength p) resp
      match resp with
      | .fail _ _ => pairError s q
      | .data bs =>
        let n := min (readLength p) (bs.length / 64)
        joinPair s q ((splitEntries n bs).map fun d => (d, false))
  else s)

/-! ## Descriptors that the engine completes itself -/

/-- BADOP (R281, R301, R478): a reserved or misplaced OPC or admin command; a descriptor whose words failed
parity completes with DATAERR by the same row. -/
def execBadop (qp : BitVec 16) (s : State) : Result :=
  let q := qp.toNat
  .next <| match readyHead s q with
    | none => s
    | some f =>
      let opc := opcOf f.raw
      let acmd := rawField f.raw 4 1
      if f.bad then finishHead s q f 9 0 0
      else if opcAllowed opc q (pairOf s q).ctype = false then
        finishHead s q f (if servesAll s ∨ opc = 9 then 1 else 6) 0 0
      else if opc = 9 ∧ (acmd = 0 ∨ 7 ≤ acmd) then finishHead s q f (if servesAll s then 1 else 6) 0 0
      else s

/-- KERNEL (R282): its argument block goes to the Helm; it waits for room there (R293). -/
def execKernel (qp : BitVec 16) (s : State) : Result :=
  .next (onHead s qp.toNat 1 fun f =>
    let k := kernelOfBlock (BitVec.ofNat 256 (rawField f.raw 16 32)) (.queue qp f.pos)
    if helmRoom s k then enqueueKernel (dispatchHead s qp.toNat .unit) k else s)

/-- A PLANE_LOAD or PLANE_STORE goes to the Loader; it waits for room there. -/
def planeTransfer (s : State) (qp : BitVec 16) (load : Bool) (f : Fetched) : State :=
  if loaderRoom s then
    acceptTransfer (dispatchHead s qp.toNat .unit)
      { blk := BitVec.ofNat 256 (rawField f.raw 16 32), load := load, owner := .queue qp f.pos }
  else s

/-- PLANE_LOAD (R282). -/
def execPlaneLoad (qp : BitVec 16) (s : State) : Result :=
  .next (onHead s qp.toNat 3 (planeTransfer s qp true))

/-- PLANE_STORE (R282). -/
def execPlaneStore (qp : BitVec 16) (s : State) : Result :=
  .next (onHead s qp.toNat 4 (planeTransfer s qp false))

/-- TIMETABLE_BIND (R285): a switch request under R251. -/
def execTimetableBind (qp : BitVec 16) (s : State) : Result :=
  .next (onHead s qp.toNat 5 fun f =>
    let w : Switch :=
      { slot := BitVec.ofNat 4 (rawField f.raw 16 1), asap := (rawField f.raw 16 1).testBit 4,
        tgt := BitVec.ofNat 48 (rawField f.raw 24 6), bind := some (qp, f.pos), since := s.now }
    let s := dispatchHead s qp.toNat .bind
    match requestSwitch s w with
    | (s, true) => s
    | (s, false) => complete s qp.toNat f.pos 0x0B 0 0)

/-! ## FENCE (R286) -/

/-- The sailing is the current one and has sent its marker, or been abandoned or skipped. -/
def currentClosed (s : State) : Bool :=
  if s.ttb.passSail = s.ttb.sail then s.ttb.marked else true

/-- A FENCE's sailing condition. -/
def fenceCond (s : State) (cond : BitVec 8) (t : Sail) : Bool :=
  let d := (s.ttb.sail - t).toNat
  if cond = 1 then decide (d < 2 ^ 47)
  else if cond = 2 then (decide (1 ≤ d) && decide (d < 2 ^ 47)) || (decide (d = 0) && currentClosed s)
  else true

/-- Whether pair b belongs to the scope of a FENCE of pair a. -/
def inScope (scope qa : Nat) (a : Pair) (qb : Nat) (b : Pair) : Bool :=
  match scope with
  | 0 => decide (qa = qb)
  | 1 =>
    if a.ctype = 0 then decide (b.ctype = 0)
    else if a.ctype = 3 then decide (qa = qb)
    else decide (a.ctype = b.ctype) && decide (a.client = b.client)
  | _ => true

/-- The descriptors dispatched in a FENCE's scope. -/
def fenceWaits (s : State) (qp scope : Nat) : List (Nat × Nat) :=
  let a := pairOf s qp
  s.que.pairs.flatMap fun p =>
    if inScope scope qp a p.1 p.2 then p.2.disp.map fun d => (p.1, d.pos) else []

/-- A descriptor is dispatched and not completed. -/
def stillThere (s : State) (w : Nat × Nat) : Bool := (pairOf s w.1).disp.any fun d => decide (d.pos = w.2)

/-- The FENCE that a pair has open completes when its scope is done and its condition holds. -/
def endFence (s : State) (qp : Nat) : State :=
  match (pairOf s qp).disp.find? (fun d => match d.work with | .fence _ _ _ => true | _ => false) with
  | some d =>
    match d.work with
    | .fence waits cond t =>
      if waits.any (stillThere s) = false ∧ fenceCond s cond t then complete s qp d.pos 0 0 0 else s
    | _ => s
  | none => s

/-- FENCE (R286). -/
def execFence (qp : BitVec 16) (s : State) : Result :=
  let q := qp.toNat
  .next (onHead s q 6 fun f =>
    let scope := rawField f.raw 4 1
    let cond := rawField f.raw 5 1
    if 3 ≤ scope ∨ 3 ≤ cond then finishHead s q f 2 0 0
    else
      let w : Work := .fence (fenceWaits s q scope) (BitVec.ofNat 8 cond) (BitVec.ofNat 48 (rawField f.raw 16 6))
      endFence (dispatchHead s q w) q)

/-- FENCE_COMPLETE (R286). -/
def execFenceComplete (qp : BitVec 16) (s : State) : Result := .next (endFence s qp.toNat)

/-! ## MAILBOX (R287) -/

/-- MAILBOX: it enters the 32-entry mailbox queue. -/
def execMailbox (qp : BitVec 16) (s : State) : Result :=
  .next (onHead s qp.toNat 7 fun f =>
    if s.que.mail.length < 32 then
      updQue (dispatchHead s qp.toNat .mailbox) fun q =>
        { q with mail := q.mail ++ [{ raw := f.raw, id := qp, remote := false, pos := f.pos }] }
    else s)

/-- The status that a MAILBOX completes with. -/
def mailStatus (v : Nat) : Nat := if v = 0 ∨ 0x80 ≤ v then v else 0x80

/-- QUE_MB_DONE: a write pops the head and completes its descriptor. -/
def execQueMbDone (wr : Writer) (val : Word) (s : State) : Result :=
  .next (onWrite s wr Reg.queMbDone fun s =>
    match s.que.mail with
    | [] => s
    | m :: t =>
      let s := updQue s fun q => { q with mail := t }
      if m.remote then s
      else complete s m.id.toNat m.pos (mailStatus (bits val 7 0)) 0 (reg s Reg.queMbRes))

/-! ## MOVE (R283, R284) -/

/-- The spaces that SRCSP and DSTSP name. -/
inductive Space where
  | host
  | dram
  | bank1
  | bank3
  deriving DecidableEq, Repr

/-- A space code; 4–7 are reserved. -/
def Space.of (v : Nat) : Option Space :=
  match v % 8 with
  | 0 => some .host
  | 1 => some .dram
  | 2 => some .bank1
  | 3 => some .bank3
  | _ => none

/-- The range of a space that an access of n bytes at a leaves. -/
def Space.leaves (sp : Space) (a n : Nat) : Bool :=
  match sp with
  | .host => decide (2 ^ 64 < a + n)
  | .dram => decide (dramSize < a + n)
  | _ => decide (bankSize < a + n)

/-- Module address of an address within a space. -/
def Space.addr (sp : Space) (a : Nat) : Nat :=
  match sp with
  | .bank1 => bankAddr 1 a
  | .bank3 => bankAddr 3 a
  | _ => a

/-- What a MOVE's check refuses, in the order of R283; 0 where it passes. -/
def moveRefusal (p : Pair) (src dst : Option Space) (sa da n : Nat) : Nat :=
  match src, dst with
  | some a, some b =>
    if a = .host ∧ b = .host then 2
    else if (a = .host ∨ b = .host) ∧ (p.ctype = 2 ∨ p.ctype = 3) then 3
    else if (a ≠ .host ∧ a.leaves sa n) ∨ (b ≠ .host ∧ b.leaves da n) then 4
    else if b = .bank1 ∧ 0 < n ∧ 0x7FFF00 < da + n then 5
    else if (a = .host ∧ a.leaves sa n) ∨ (b = .host ∧ b.leaves da n) then 4
    else 0
  | _, _ => 2

/-- The status of a MOVE whose module access was answered so (R421). -/
def moveStatus (r : Resp) : Nat :=
  match r with
  | .ok => 0
  | .unmapped => 4
  | .dataerr => 9
  | .protect => 5
  | _ => 10

/-- The bytes of a copy within one space: those of the destination that overlap the source are free. -/
def overlapped (s : State) (sa da n : Nat) (bs : List Byte) : List Byte :=
  bs.zipIdx.map fun (b, i) => if sa ≤ da + i ∧ da + i < sa + n then byteOf (freeNat s) i else b

/-- The source of a MOVE or a LINK_SEND: the bytes read, and the status so far; none where the host's answer
is not an answer to this read. -/
def moveSource (s : State) (p : Pair) (sp : Space) (a n : Nat) (resp : HostRead) : Option (State × List Byte × Nat) :=
  match sp with
  | .host =>
    match resp with
    | .data bs => if bs.length = n then some (readHost s p a n resp, bs, 0) else none
    | .fail _ bs => some (readHost s p a n resp, bs.take n, 8)
  | sp =>
    match nocRead s 11 (sp.addr a) n with
    | (s, .ok, bs) => some (s, bs, 0)
    | (s, .dataerr, bs) => some (s, bs, 9)
    | (s, r, _) => some (s, [], moveStatus r)

/-- The destination of a MOVE: the status of its writes. -/
def moveDest (s : State) (p : Pair) (sp : Space) (a : Nat) (bs : List Byte) (poisoned : Bool) (collided : List Nat) :
    State × Nat :=
  if bs = [] then (s, 0)
  else match sp with
    | .host => (writeHost s p a bs poisoned, 0)
    | sp =>
      let (s, r) := nocWrite s 11 (sp.addr a) bs collided
      (s, moveStatus r)

/-- MOVE (R283, R284, R421): its accesses are made; MOVE_COMPLETE posts its status. -/
def execMove (qp : BitVec 16) (resp : HostRead) (collided : List Nat) (s : State) : Result :=
  let q := qp.toNat
  .next (onHead s q 2 fun f =>
    let p := pairOf s q
    let n := rawField f.raw 4 4
    let src := Space.of (rawField f.raw 8 1)
    let dst := Space.of (rawField f.raw 9 1)
    let sa := rawField f.raw 16 8
    let da := rawField f.raw 24 8
    let bad := moveRefusal p src dst sa da n
    match src, dst with
    | some a, some b =>
      if bad ≠ 0 ∨ n = 0 then finishHead s q f bad 0 0
      else if s.que.d3 ∧ (a = .host ∨ b = .host) then s
      else match moveSource s p a sa n resp with
        | none => s
        | some (s, bs, st) =>
          let clash : Bool := decide (a = b)
          let bs := if clash then overlapped s sa da n bs else bs
          let s := if clash then usedFree s else s
          let (s, st') := moveDest s p b da bs (decide (st = 9)) collided
          dispatchHead s q (.move (BitVec.ofNat 8 (if st = 0 then st' else st)))
    | _, _ => finishHead s q f 2 0 0)

/-- MOVE_COMPLETE (R284): the status is posted. -/
def execMoveComplete (qp : BitVec 16) (pos : Nat) (s : State) : Result :=
  .next <| match (pairOf s qp.toNat).disp.find? (fun d => decide (d.pos = pos)) with
    | some d =>
      match d.work with
      | .move st => complete s qp.toNat pos st.toNat 0 0
      | _ => s
    | none => s

/-! ## Admin commands (R296–R298, R597) -/

/-- Run an admin command that pair 0 may dispatch now; `inLoad` is whether LOAD serves it (R301). -/
def onAdmin (s : State) (acmd : Nat) (inLoad : Bool) (f : Fetched → State) : State :=
  onHead s 0 9 fun h =>
    if rawField h.raw 4 1 = acmd then
      if servesAll s ∨ inLoad then f h else finishHead s 0 h 6 0 0
    else s

/-- FE, FW, FN, FS in UP, as bits 0–3. -/
def portsUp (s : State) : Nat :=
  (List.range 4).foldl (fun v n =>
    if (portAt s (BitVec.ofNat 2 n)).phase = .up then v + 2 ^ n else v) 0

/-- The serial number's ten characters. -/
def serialBytes : List Byte :=
  bytesOf (Config.serial 0).toNat 4 ++ bytesOf (Config.serial 1).toNat 4 ++ bytesOf (Config.serial 2).toNat 2

/-- "HXM-1024A" padded to 16 bytes. -/
def partBytes : List Byte := bytesOf 0x2D4D5848 4 ++ bytesOf 0x34323031 4 ++ bytesOf 0x41 8

/-- The IDENTIFY page (09). -/
def identityPage (s : State) : List Byte :=
  partBytes ++ serialBytes ++ bytesOf 0x41 1 ++ bytesOf 0 5 ++ bytesOf (reg s Reg.hlmUcodeVer).toNat 4 ++
    bytesOf s.wdn.iver.toNat 4 ++ bytesOf (freePairs s) 4 ++ bytesOf 2048 2 ++ bytesOf s.fry.node.toNat 2 ++
    bytesOf (portsUp s) 1 ++ List.replicate 4047 0

/-- IDENTIFY (R283): the page goes to host memory without a PASID. -/
def execIdentify (s : State) : Result :=
  .next (onAdmin s 1 true fun f =>
    let a := rawField f.raw 16 8
    if 2 ^ 64 < a + 4096 then finishHead s 0 f 4 0 0
    else if s.que.d3 then s
    else finishHead (writeHost s (pairOf s 0) a (identityPage s) false) 0 f 0 0 0)

/-- The pair that a CREATE_QP asks for, ACTIVE (R297). -/
def newPair (base : Nat) (d : Raw64) : Pair :=
  let ctype : BitVec 2 := BitVec.ofNat 2 (rawField d 40 1)
  let client := rawField d 44 4
  { Pair.none with
    st := .active, ctype := ctype, prio := BitVec.ofNat 2 (rawField d 41 1),
    client := if ctype = 1 then BitVec.ofNat 20 client else if ctype = 2 then BitVec.ofNat 20 (client % 65536) else 0,
    sqBase := BitVec.ofNat 64 (rawField d 16 8), cqBase := BitVec.ofNat 64 (rawField d 24 8),
    sqSize := rawField d 32 4 % 2 ^ 17, cqSize := rawField d 36 4 % 2 ^ 17, phase := true,
    vector := BitVec.ofNat 11 (rawField d 48 2), noirq := (rawField d 48 2).testBit 15,
    modcnt := rawField d 50 2, modtime := rawField d 52 2, taken := base }

/-- A ring size that is refused (R272). -/
def badSizes (sq cq : Nat) : Bool :=
  decide (sq = 1) || decide (cq = 1) || decide (65536 < sq) || decide (65536 < cq) ||
    (decide (cq = 0) && decide (0 < sq))

/-- The first failing check of CREATE_QP, 0 where all pass (R296). VECTOR has 11 bits, so BADVECTOR never
occurs. -/
def createRefusal (s : State) (qpid : Nat) (p : Pair) : Nat :=
  if qpid ≠ 0 ∧ (pairOf s qpid).ctype = 3 then 0x14
  else if p.ctype = 3 then 2
  else if qpid ≠ 0 ∧ (pairOf s qpid).st ≠ .free then 0x0F
  else if (p.ctype = 1 ∧ s.que.pasidEn = false) ∨
      (p.ctype = 2 ∧ (portsUp s = 0 ∨ p.client.toNat = s.fry.node.toNat)) then 0x13
  else if badSizes p.sqSize p.cqSize then 0x10
  else if p.sqBase.toNat % 64 ≠ 0 ∨ p.cqBase.toNat % 16 ≠ 0 then 0x11
  else if p.ctype = 2 ∧ ((p.sqSize ≠ 0 ∧ dramSize < p.sqBase.toNat + 64 * p.sqSize) ∨
      (p.cqSize ≠ 0 ∧ dramSize < p.cqBase.toNat + 16 * p.cqSize)) then 4
  else if qpid = 0 ∧ lowestFree s = none then 0x0E
  else 0

/-- CREATE_QP (R296, R297). -/
def execCreateQp (s : State) : Result :=
  .next (onAdmin s 2 true fun f =>
    let p := newPair s.que.posBase f.raw
    let want := rawField f.raw 42 2
    let bad := createRefusal s want p
    if bad ≠ 0 then finishHead s 0 f bad 0 0
    else
      let q := if want = 0 then (lowestFree s).getD 0 else want
      finishHead (setPair s q p) 0 f 0 0 (BitVec.ofNat 32 q))

/-- Undispatched descriptors of a deleted pair complete ABORTED as far as CQ slots allow (R298); in D3hot those of a
host client keep their completions (R301). -/
def abortFetched (s : State) (qp : Nat) : List Fetched → State
  | [] => s
  | f :: t =>
    let p := pairOf s qp
    let s := if cqRoom p ∧ p.st = .active then
        complete (setPair s qp { p with disp := p.disp ++ [⟨f.pos, f.raw, .unit, false⟩] }) qp f.pos 10 0 0
      else s
    abortFetched s qp t

/-- DELETE_QP (R298). It completes once the pair has become FREE. -/
def execDeleteQp (s : State) : Result :=
  .next (onAdmin s 3 true fun f =>
    let qp := rawField f.raw 16 2
    let p := pairOf s qp
    if qp = 0 ∨ p.ctype = 3 ∨ p.st = .free then finishHead s 0 f 0x14 0 0
    else
      let s := dispatchHead s 0 (.deletePair (BitVec.ofNat 16 qp))
      if p.st = .draining then s
      else
        let s := abortFetched s qp p.fetched
        let p := pairOf s qp
        setPair s qp { p with st := .draining, fetched := [], tell := false })

/-- SET_IRQ (R303, R597): it takes effect as its completion is written. -/
def execSetIrq (s : State) : Result :=
  .next (onAdmin s 4 true fun f =>
    let qp := rawField f.raw 16 2
    let p := pairOf s qp
    finishHead s 0 f (if qp = 0 ∨ p.ctype = 3 ∨ p.st = .free ∨ p.st = .draining then 0x14 else 0) 0 0)

/-- The pairs of a client that are to drain: all but those that drain with a PAIR_FREED to come already. -/
def clientPairs (s : State) (ctype : BitVec 2) (client : BitVec 20) : List Nat :=
  (s.que.pairs.filter fun p => decide (p.1 ≠ 0) && decide (p.2.ctype = ctype) && decide (p.2.client = client) &&
    !(decide (p.2.st = .draining) && p.2.tell)).map (·.1)

/-- CLIENT_LOST (R300, R597): RESULT counts the pairs set to drain. -/
def execClientLost (s : State) : Result :=
  .next (onAdmin s 5 false fun f =>
    let ty := rawField f.raw 16 1
    let id := rawField f.raw 20 4
    if ty ≠ 1 ∧ ty ≠ 2 then finishHead s 0 f 2 0 0
    else
      let l := if ty = 1 then clientPairs s 1 (BitVec.ofNat 20 id) else clientPairs s 2 (BitVec.ofNat 20 (id % 65536))
      finishHead (l.foldl (fun s q => drainPair s true q) s) 0 f 0 0 (BitVec.ofNat 32 l.length))

/-- QUE_QPINFO0 of a pair. -/
def qpInfo0 (p : Pair) : Word :=
  let st := match p.st with | .free => 0 | .active => 1 | .error => 2 | .draining => 3
  fld st 29 ||| fld p.ctype.toNat 27 ||| fld p.prio.toNat 25 ||| flg p.phase 24 ||| fld p.client.toNat 0

/-- QP_STATE. -/
def execQpState (s : State) : Result :=
  .next (onAdmin s 6 true fun f => finishHead s 0 f 0 0 (qpInfo0 (pairOf s (rawField f.raw 16 2))))

/-! ## Drains, timers, pair 0, events -/

/-- The DELETE_QP descriptors that wait for a pair. -/
def deletesOf (s : State) (qp : BitVec 16) : List Nat :=
  ((pairOf s 0).disp.filter fun d => decide (d.work = .deletePair qp)).map (·.pos)

/-- PAIR_DRAIN_END (R298, R300): the pair becomes FREE. -/
def execPairDrainEnd (qp : BitVec 16) (s : State) : Result :=
  let q := qp.toNat
  let p := pairOf s q
  .next (if p.st = .draining ∧ p.disp = [] then
    let s := updQue (setPair s q Pair.none) fun e => { e with posBase := max e.posBase p.taken }
    let s := if p.tell then postEvent s 3 q else s
    (deletesOf s qp).foldl (fun s pos => complete s 0 pos 0 0 0) s
  else s)

/-- MODTIME_EXPIRY (R302). -/
def execModtimeExpiry (qp : BitVec 16) (s : State) : Result :=
  let p := pairOf s qp.toNat
  .next (if p.modtime ≠ 0 ∧ p.unsig ≠ 0 ∧ p.unsigAt + p.modtime * 1000 ≤ s.now then signalPair s qp.toNat else s)

/-- The code of QUE_ADM_CSTAT for the staged set (R305); VECTOR has 11 bits, so 3 never occurs. -/
def admRefusal (s : State) : Nat :=
  let sq := getField s Reg.queAdmSize 12 0
  let cq := getField s Reg.queAdmSize 28 16
  if badSizes sq cq then 1
  else if (reg s Reg.queAdmSqbLo).toNat % 64 ≠ 0 ∨ (reg s Reg.queAdmCqbLo).toNat % 16 ≠ 0 then 2
  else if (pairOf s 0).fetched ≠ [] ∨ (pairOf s 0).disp ≠ [] then 4
  else 0

/-- QUE_ADM_COMMIT (R305). -/
def execQueAdmCommit (wr : Writer) (s : State) : Result :=
  .next (onWrite s wr Reg.queAdmCommit fun s =>
    let code := admRefusal s
    let s := setReg s Reg.queAdmCstat (fld code 0)
    if code ≠ 0 then s
    else setPair s 0
      { Pair.none with
        st := .active, sqBase := BitVec.ofNat 64 (reg2 s Reg.queAdmSqbLo Reg.queAdmSqbHi),
        cqBase := BitVec.ofNat 64 (reg2 s Reg.queAdmCqbLo Reg.queAdmCqbHi),
        sqSize := getField s Reg.queAdmSize 12 0, cqSize := getField s Reg.queAdmSize 28 16, phase := true,
        vector := BitVec.ofNat 11 (getField s Reg.queAdmVec 10 0), noirq := getFlag s Reg.queAdmVec 15,
        open_ := true, taken := (pairOf s 0).taken })

/-- ASYNC_EVENT_POST (R291): the oldest waiting event goes to the admin CQ, while QUE_CTL.EVEN is set. -/
def execAsyncEventPost (s : State) : Result :=
  .next <| match s.que.events with
    | [] => s
    | (code, subj) :: t =>
      let p := pairOf s 0
      if getFlag s Reg.queCtl 1 ∧ p.st = .active ∧ p.cqSize ≠ 0 ∧ cqRoom p ∧ s.wdn.held = false ∧
          s.que.d3 = false then
        writeCompletion (updQue s fun q => { q with events := t }) 0 s.ttb.sail 0xFFFF 0x16 0 (passCount s) false false
          (fld code.toNat 24 ||| fld subj.toNat 0)
      else s

/-! ## Power states and vectors -/

/-- D3HOT_ENTRY (R301). -/
def execD3hotEntry (s : State) : Result :=
  .next (if s.hx1 then updQue s fun q => { q with d3 := true } else s)

/-- The completions kept in D3hot, in the order their descriptors finished (R293): pair, position, status, unit
status and result. -/
def keptCompletions (s : State) : List (Nat × Nat × Nat × Nat × Word) :=
  s.que.kept.flatMap fun (q, pos) => (pairOf s q).disp.filterMap fun d =>
    match d.work with
    | .kept sc us r => if d.pos = pos then some (q, pos, sc.toNat, us.toNat, r) else none
    | _ => none

/-- Vectors whose message waits and is not masked send it (R303). -/
def sendPending (s : State) : State :=
  (s.que.msix.filter fun p => p.2.pending && !p.2.masked).foldl
    (fun s p => signalVector (setMsix s p.1 { p.2 with pending := false }) p.1) s

/-- D0_RETURN (R301): the kept completions are written. -/
def execD0Return (s : State) : Result :=
  .next (if s.hx1 then
    let l := keptCompletions s
    let s := sendPending (updQue s fun q => { q with d3 := false, kept := [] })
    l.foldl (fun s (q, pos, sc, us, r) => complete s q pos sc us r) s
  else s)

/-- VECTOR_UNMASK (R303): a pending vector sends its message. -/
def execVectorUnmask (vec : BitVec 11) (s : State) : Result :=
  let e := msixOf s vec.toNat
  .next (if s.hx1 = false then s
  else if e.pending then signalVector (setMsix s vec.toNat { e with masked := false, pending := false }) vec.toNat
  else setMsix s vec.toNat { e with masked := false })

end Sys2Proof.Machine
end

