-- ==== Sys2Proof/Machine/Ferry.lean ====
section
/-!
DEFINITION. The Ferry block's commands: ports and flits, discovery, tick messages, epochs, halos and
combines (13).
-/
namespace Sys2Proof.Machine

/-! ## Ports (R424–R428, R463, R464) -/

/-- Ports train and carry traffic in LOAD, RUN, DEGRADED and BENCH. -/
def ferryActive (s : State) : Bool := s.hx1 && (runs s || decide (s.mode = .load))

/-- The serial number as one number. -/
def serialNumber : BitVec 80 :=
  BitVec.ofNat 80 ((Config.serial 0).toNat + (Config.serial 1).toNat * 2 ^ 32 + (Config.serial 2).toNat % 65536 * 2 ^ 64)

/-- This module floods its node ID, serial number and ROOT bit (R433, R437). -/
def announce (s : State) : State :=
  sendAll (updFry s fun f => { f with announced := true }) allPorts
    (.announce s.fry.node serialNumber (bit s.fry.treeNext 31))

/-- A port changes its phase; entering or leaving UP raises PORTCHG and starts discovery (R433). -/
def portPhase (s : State) (n : BitVec 2) (ph : PortPhase) : State :=
  let p := portAt s n
  let s' := setPort s n { p with phase := ph, since := s.now }
  if (p.phase = .up) = (ph = .up) then s' else announce (fryEvent s' 0)

/-- A port starts to train: the link starts anew, and what the port held for the far end is gone (DESIGN CHOICE,
log 185). -/
def startTraining (s : State) (n : BitVec 2) : State :=
  let s := portPhase s n .training
  setPort s n
    { portAt s n with txSeq := 0, rxSeq := 255, sent := [], waiting := [], credits := noCredits, owed := noCredits,
                      ucAt := [], ucOver := false }

/-- The flits that the far end grants a port per class as the link comes up (R431): the manual does not say how many. -/
def firstCredits (s : State) : List Nat := (List.range 4).map fun i => freeNat s / 65536 ^ i % 65536

/-- PORT_SIGNAL_DETECT (R426, R463). -/
def execPortSignalDetect (port : BitVec 2) (s : State) : Result :=
  let ph := (portAt s port).phase
  .next (if ferryActive s ∧ bit (pctl s port) 31 ∧ (ph = .idle ∨ ph = .sleep) then startTraining s port else s)

/-- PORT_UP (R424, R426): how the training ended. -/
def execPortUp (port : BitVec 2) (t : Training) (s : State) : Result :=
  .next (if ferryActive s = false ∨ (portAt s port).phase ≠ .training then s
  else match t with
    | .failed step =>
      let s := portPhase s port .failed
      setPort s port { portAt s port with reason := step }
    | .success rate rev far pairing lat inLoad =>
      if rate = 3 ∨ rate.toNat < bits (pctl s port) 1 0 then s
      else
        let s := setPort (usedFree s) port
          { portAt s port with rate := rate, reversed := rev, farNode := far, lat := lat, reason := 0,
                               credits := firstCredits s, calAt := s.now,
                               inLoad := if inLoad then some (instSail s) else none }
        if pairing then portPhase s port .up else fryEvent (portPhase s port .miswired) 1)

/-- TRAINING_RETRY (R426): 1 ms after the failure. -/
def execTrainingRetry (port : BitVec 2) (s : State) : Result :=
  let p := portAt s port
  .next (if ferryActive s ∧ p.phase = .failed ∧ p.since + 1000000 ≤ s.now then startTraining s port else s)

/-- PORT_DOWN (R428): lanes lose signal, or more than 16 uncorrectable codewords came within 1 ms. -/
def execPortDown (port : BitVec 2) (lostSignal : Bool) (s : State) : Result :=
  let p := portAt s port
  .next (if ferryActive s = false then s
  else if lostSignal then
    if p.phase = .up ∨ p.phase = .training ∨ p.phase = .miswired then portPhase s port .idle else s
  else if p.phase = .up ∧ p.ucOver then startTraining s port
  else s)

/-- LATENCY_RECALIBRATION (R427): 100 ms after the last calibration. -/
def execLatencyRecalibration (port : BitVec 2) (lat : BitVec 16) (s : State) : Result :=
  let p := portAt s port
  .next (if ferryActive s ∧ p.phase = .up ∧ p.calAt + 100000000 ≤ s.now then
    setPort s port { p with lat := lat, calAt := s.now }
  else s)

/-- FERRY_DOMAIN_SLEEP (R463): no signal for 1 ms. -/
def execFerryDomainSleep (port : BitVec 2) (s : State) : Result :=
  let p := portAt s port
  .next (if ferryActive s ∧ p.phase = .idle ∧ p.since + 1000000 ≤ s.now then portPhase s port .sleep else s)

/-- FERRY_ERROR_INTERVAL_END (R502): 1 ms after the last one. -/
def execFerryErrorIntervalEnd (port : BitVec 2) (s : State) : Result :=
  let p := portAt s port
  .next (if s.hx1 ∧ p.ivAt + 1000000 ≤ s.now then
    let s := if p.ivUc ≠ 0 then report s 0x07 port.toNat (BitVec.ofNat 32 p.ivUc) else s
    let s := if p.ivReplay ≠ 0 then report s 0x08 port.toNat (BitVec.ofNat 32 p.ivReplay) else s
    setPort s port { p with ivUc := 0, ivReplay := 0, ivAt := s.now }
  else s)

/-- FRY_PCTL_WRITE (R464): reserved codes leave their field; a change of EN or MAXRATE retrains the port. -/
def execFryPctlWrite (wr : Writer) (port : BitVec 2) (val : Word) (s : State) : Result :=
  let off := Reg.fryPctl + 0x20 * port.toNat
  .next (onWrite s wr off fun s =>
    let old := pctl s port
    let (new, bad) := writeFields (regFields off) val old
    let s := setReg s off new
    let s := if bad then noteReserved s wr off else s
    let ph := (portAt s port).phase
    if bit old 31 = bit new 31 ∧ bits old 1 0 = bits new 1 0 then s
    else if bit new 31 = false then portPhase s port .disabled
    else if ph = .disabled then portPhase s port .idle
    else if ph = .idle ∨ ph = .sleep then s
    else startTraining s port)

/-! ## Flits (R429–R431) -/

/-- Bytes lo to lo + n − 1 of a flit. -/
def flitField (f : BitVec 2048) (lo n : Nat) : Nat := (f.toNat >>> (8 * lo)) % 2 ^ (8 * n)

/-- The flit's CRC holds. -/
def flitCrcOk (f : BitVec 2048) : Bool :=
  decide ((crc32c (bytesOf f.toNat 252)).toNat = flitField f 252 4)

/-- The flits that an acknowledgement of sequence `ack` leaves. -/
def unacked (ack : Byte) (sent : List SentFlit) : List SentFlit :=
  if sent.any (fun f => decide (f.seq = ack)) then (sent.dropWhile fun f => decide (f.seq ≠ ack)).tail else sent

/-- A flit of the replay buffer goes out again. -/
def resend (n : BitVec 2) (s : State) (f : SentFlit) : State := putFlit s n f.seq f.payload f.msg

/-- A NAK: every flit of the replay buffer is sent again; one replayed 8 times makes the port retrain. -/
def replayFlits (s : State) (n : BitVec 2) : State :=
  let p := portAt s n
  let k := p.sent.length
  let again := p.sent.map fun f => { f with replays := f.replays + 1 }
  let s := setPort s n { p with sent := again, ivReplay := p.ivReplay + k }
  let s := countField s (Reg.fryPretry + 0x20 * n.toNat) 31 0 k
  let s := again.foldl (resend n) s
  if again.any (fun f => decide (8 ≤ f.replays)) then startTraining s n else s

/-- The header of a good flit: what it acknowledges, the credits it returns, and a NAK; what waited may then go. -/
def takeHeader (s : State) (n : BitVec 2) (f : BitVec 2048) : State :=
  let p := portAt s n
  let ack : Byte := BitVec.ofNat 8 (flitField f 2 1)
  let credits := p.credits.zipIdx.map fun (c, i) => c + flitField f (4 + 2 * i) 2
  let s := setPort s n { p with sent := unacked ack p.sent, credits := credits }
  drainPort (if (flitField f 3 1).testBit 0 then replayFlits s n else s) n

/-- The class of a flit. -/
def flitClass (f : BitVec 2048) : Nat := flitField f 0 1 % 4

/-- The payload of a flit. -/
def flitPayload (f : BitVec 2048) : BitVec 1920 := BitVec.ofNat 1920 (flitField f 12 240)

/-- A flit is taken in order: its payload goes to its class, whose credit is returned with the answer. -/
def acceptFlit (s : State) (n : BitVec 2) (f : BitVec 2048) : State :=
  let p := portAt s n
  let seq : Byte := BitVec.ofNat 8 (flitField f 1 1)
  let s := setPort s n { p with rxSeq := seq, owed := addCredit p.owed (flitClass f) }
  answerFlit (emit s (.flitTaken n (BitVec.ofNat 2 (flitClass f)) (flitPayload f))) n seq false

/-- A good flit: taken in order; a repeat is dropped and acknowledged, a gap answered with NAK. A MISWIRED port carries
MGMT alone (R424). -/
def takeFlit (s : State) (n : BitVec 2) (f : BitVec 2048) : State :=
  if portCarries (portAt s n) (flitClass f) = false then s
  else
    let s := takeHeader s n f
    let p := portAt s n
    if p.phase ≠ .up ∧ p.phase ≠ .miswired then s
    else
      let ahead := (BitVec.ofNat 8 (flitField f 1 1) - p.rxSeq - 1).toNat
      if ahead = 0 then acceptFlit s n f
      else answerFlit s n p.rxSeq (decide (ahead < 128))

/-- An uncorrectable codeword: counted, and held against the last millisecond (R428, R502). -/
def badCodeword (s : State) (n : BitVec 2) : State :=
  let s := countField s (Reg.fryPuc + 0x20 * n.toNat) 31 0 1
  let p := portAt s n
  let at_ := p.ucAt.filter (fun t => decide (s.now < t + 1000000)) ++ [s.now]
  setPort s n { p with ivUc := p.ivUc + 1, ucAt := at_, ucOver := p.ucOver || decide (16 < at_.length) }

/-- FLIT_RECEIVE (R430): `codewordOk` is false for an uncorrectable codeword, `corrected` counts corrected ones. -/
def execFlitReceive (port : BitVec 2) (flit : BitVec 2048) (codewordOk : Bool) (corrected : Nat) (s : State) :
    Result :=
  let p := portAt s port
  .next (if ferryActive s ∧ (p.phase = .up ∨ p.phase = .miswired) then
    let s := countField s (Reg.fryPcw + 0x20 * port.toNat) 31 0 corrected
    if codewordOk = false then answerFlit (badCodeword s port) port p.rxSeq true
    else if flitCrcOk flit = false then answerFlit s port p.rxSeq true
    else takeFlit s port flit
  else s)

/-! ## Discovery and the tick tree (R432–R437, R461) -/

/-- Node IDs that two modules with different serial numbers announce. -/
def duplicateIds (self : BitVec 16) (l : List NodeInfo) : List (BitVec 16) :=
  ((l.filter fun n =>
      (decide (n.node = self) && decide (n.serial ≠ serialNumber)) ||
      l.any fun m => decide (m.node = n.node) && decide (m.serial ≠ n.serial)).map (·.node)).eraseDups

/-- One module's announcement beats another's path: fewer hops, or as many on a lower port (R433). -/
def nearer (m n : NodeInfo) : Bool := decide (m.hops < n.hops) || (decide (m.hops = n.hops) && decide (m.port < n.port))

/-- Two announcements are of one module. -/
def sameModule (m n : NodeInfo) : Bool := decide (m.node = n.node) && decide (m.serial = n.serial)

/-- The announcements that discovery heard on UP ports, of other modules. -/
def heard (s : State) (l : List NodeInfo) : List NodeInfo :=
  l.filter fun n => decide ((portAt s n.port).phase = .up) &&
    !(decide (n.node = s.fry.node) && decide (n.serial = serialNumber))

/-- For every module heard of, the path with the fewest hops, ties going to the lower port (R433). -/
def bestPaths (l : List NodeInfo) : List NodeInfo :=
  (l.filter fun n => !(l.any fun m => sameModule m n && nearer m n)).foldr
    (fun n r => if r.any (sameModule n) then r else n :: r) []

/-- The upstream port under the committed tree settings (R436). -/
def upstream (s : State) (tree : Word) (l : List NodeInfo) : Option (BitVec 2) :=
  if bit tree 31 then none
  else if bit tree 30 then
    let p : BitVec 2 := BitVec.ofNat 2 (bits tree 29 28)
    if (portAt s p).phase = .up then some p else none
  else (lowestRoot l).map (·.port)

/-- Tick depth of the upstream neighbour on a port: what it announced on that port or, over a parallel link, on
another (R436). -/
def neighbourDepth (s : State) (l : List NodeInfo) (p : BitVec 2) : Nat :=
  let next := l.filter fun n => decide (n.hops = 1)
  match (next.find? fun n => decide (n.port = p)).orElse
      fun _ => next.find? fun n => decide (n.node = (portAt s p).farNode) with
  | some n => n.depth
  | none => 0

/-- The destination of a packet. -/
def packetDest (m : LinkMsg) : Option (BitVec 16) :=
  match m with
  | .packet _ dst _ _ _ _ _ => some dst
  | .packetAck _ dst _ _ => some dst
  | .doorbell _ dst _ _ _ => some dst
  | .notice _ dst _ => some dst
  | _ => none

/-- The packets that wait for a node are dropped (R461). -/
def dropPackets (s : State) (n : BitVec 16) : State :=
  allPorts.foldl (fun s p =>
    setPort s p { portAt s p with waiting := (portAt s p).waiting.filter fun m => decide (packetDest m ≠ some n) }) s

/-- A node that no path leads to any more (R300, R461). -/
def loseNode (s : State) (n : BitVec 16) : State :=
  let s := postEvent (fryEvent (dropPackets s n) 2) 2 n.toNat
  (clientPairs s 2 (n.zeroExtend 20)).foldl (fun s q => drainPair s true q) s

/-- What was heard is flooded on: every announcement leaves on the other ports (R433). -/
def floodOn (s : State) (l : List NodeInfo) : State :=
  l.foldl (fun s n => sendAll s (allPorts.filter fun p => decide (p ≠ n.port)) (.announce n.node n.serial n.root)) s

/-- This module's own announcement in a discovery that another module's port began (R433). -/
def announceOnce (s : State) : State := if s.fry.announced then s else announce s

/-- DISCOVERY (R433–R436, R461): the announcements of other modules that it brought. Each module announces itself and
floods on what it hears. -/
def execDiscovery (nodes : List NodeInfo) (s : State) : Result :=
  .next (if ferryActive s then
    let l := heard s nodes
    let best := bestPaths l
    let tree := s.fry.treeNext
    let dups := duplicateIds s.fry.node best
    let selfDup : Bool := decide (s.fry.node ∈ dups)
    let conf : Bool := bit tree 31 && best.any fun n => n.root && decide (n.node < s.fry.node)
    let up := upstream s tree best
    let depth := match up with | some p => neighbourDepth s l p + 1 | none => 0
    let gone := (s.fry.known.filter fun n => !(best.any fun m => decide (m.node = n.node))).map (·.node)
    let children := allPorts.filter fun p => l.any fun n => n.child && decide (n.hops = 1) && decide (n.port = p)
    let s := if selfDup ∧ s.fry.selfDup = false then fryEvent s 7 else s
    let s := if conf ∧ s.fry.rootConf = false then fryEvent s 6 else s
    let s := updFry s fun f =>
      { f with discovered := true, known := best, children := children, dups := dups, selfDup := selfDup,
               rootConf := conf, tree := tree, upPort := up, upDepth := min depth 64, deep := decide (64 < depth) }
    updFry (floodOn (announceOnce (gone.foldl loseNode s)) best) fun f => { f with announced := false }
  else s)

/-- FRY_NODE_WRITE (R432): only while no port is UP; 0xFFFF is reserved. -/
def execFryNodeWrite (wr : Writer) (val : Word) (s : State) : Result :=
  .next (onWrite s wr Reg.fryNode fun s => if portsUp s = 0 then
    if bits val 15 0 = 0xFFFF then noteReserved s wr Reg.fryNode
    else updFry s fun f => { f with node := BitVec.ofNat 16 (bits val 15 0) }
  else s)

/-- FRY_TREE_COMMIT (R437): the set takes effect at the discovery that the commit starts. -/
def execFryTreeCommit (wr : Writer) (s : State) : Result :=
  .next (onWrite s wr Reg.fryTreeCommit fun s =>
    let t := reg s Reg.fryTree
    if bit t 30 ∧ bit (pctl s (BitVec.ofNat 2 (bits t 29 28))) 31 = false then setReg s Reg.fryTreeCstat 1
    else announce (setReg (updFry s fun f => { f with treeNext := t }) Reg.fryTreeCstat 0))

/-- FRY_MBUMP_ARM (R443): a write to FRY_MBUMP_HI. -/
def execFryMbumpArm (wr : Writer) (val : Word) (s : State) : Result :=
  .next (onWrite s wr Reg.fryMbumpHi fun s =>
    updFry (setReg s Reg.fryMbumpHi (fld (bits val 15 0) 0)) fun f => { f with armed := true })

/-! ## Tick messages (R438–R441) -/

/-- The pending switch takes effect at the tick that closes the sailing in progress (R252). -/
def switchDue (s : State) : Bool :=
  match s.ttb.pend with
  | some w => targetDue w.tgt s.ttb.sail w.asap
  | none => false

/-- Installation sailing of the armed MEPOCH bump. -/
def bumpTarget (s : State) : Sail := BitVec.ofNat 48 (reg2 s Reg.fryMbumpLo Reg.fryMbumpHi)

/-- MEPOCH as the next tick leaves it (R443). -/
def nextMepoch (s : State) : BitVec 16 :=
  let a : BitVec 16 := if switchDue s then 1 else 0
  let b : BitVec 16 := if s.fry.armed ∧ bumpTarget s = instSail s + 1 then 1 else 0
  s.fry.mepoch + a + b

/-- The UP ports whose neighbour takes this module as upstream (R438). -/
def downstreamPorts (s : State) : List (BitVec 2) := s.fry.children.filter fun n => decide ((portAt s n).phase = .up)

/-- A message goes down the tick tree. -/
def sendDown (s : State) (m : LinkMsg) : State := sendAll s (downstreamPorts s) m

/-- D, in ns. -/
def tickDelay (s : State) : Nat := bits s.fry.tree 15 0

/-- TICK_MESSAGE_SEND (R438): D ns before the tick under TIMER, at the tick under PIN. -/
def execTickMessageSend (s : State) : Result :=
  .next (if s.hx1 ∧ runs s ∧ isRoot s ∧ s.wdn.held = false ∧ s.ttb.ticked ∧ s.fry.tickSent = false then
    let d := tickDelay s
    let sent (s : State) : State := updFry s fun f => { f with tickSent := true }
    if bits s.ttb.src 1 0 = 1 then
      if activePeriod s ≠ 0 ∧ s.ttb.lastTick + activePeriod s * 1000 ≤ s.now + d then
        sendDown (sent s)
          (.tick { sail := s.ttb.sail + 1, mepoch := nextMepoch s, delay := BitVec.ofNat 16 d, lat := 0 })
      else s
    else sendDown (sent s)
      (.tick { sail := s.ttb.sail, mepoch := s.fry.mepoch, delay := BitVec.ofNat 16 d, lat := 0 })
  else s)

/-- TICK_MESSAGE_RECEIVE (R439): forwarded with the latency so far, and the tick scheduled D − L after receipt;
latencies are in 0.125 ns. -/
def execTickMessageReceive (port : BitVec 2) (msg : TickMsg) (s : State) : Result :=
  .next (if ferryActive s ∧ (portAt s port).phase = .up ∧ s.fry.upPort = some port ∧ s.fry.deep = false then
    let l := msg.lat + (portAt s port).lat.toNat
    let s := sendDown s (.tick { msg with lat := l })
    if runs s ∧ bits s.ttb.src 1 0 = 2 ∧ s.wdn.held = false then
      let late : Bool := decide (8 * msg.delay.toNat < l)
      let s := if late then fryEvent s 8 else s
      updFry s fun f =>
        { f with due := some (s.now + (msg.delay.toNat - l / 8), msg), tickLate := late }
    else s
  else s)

/-! ## Epochs (R444–R447) -/

/-- The module stops being a member of the current sailing: OUT, and its outstanding installation-scope
reductions complete in module scope (R445, R446). A HALOW that waits ends with fill at HALOW_COMPLETE. In a held module
the sailing is frozen, and its membership with it (R245, log 199). -/
def leaveEpoch (s : State) : State :=
  if s.wdn.held then s
  else
  let s := if s.fry.out then s else fryEvent s 5
  { updFry s (fun f => { f with out := true, awaiting := none }) with
    helm := { s.helm with red := s.helm.red.map fun r => { r with inst := none } } }

/-- The sailing record describes a sailing of this module. -/
def recordOf (s : State) : Sail := BitVec.ofNat 48 (reg2 s Reg.ttbRec (Reg.ttbRec + 4))

/-- PARTIAL reaches the sailing, or its record once it has closed (R445). -/
def markPartial (s : State) (own : Sail) : State :=
  let s := if own = s.ttb.sail then sailFlag s 7 else s
  if own = recordOf s then setFlag s (Reg.ttbRec + 8) 7 else s

/-- A verdict comes into force. The one before it is kept while a reduction of its sailing is outstanding, and a neighbour
that came up in LOAD is from now on what the verdicts of later sailings say (R445, R456, R462). -/
def takeVerdict (s : State) (m : VerdictMsg) : State :=
  let owed (v : Sail × List (BitVec 16)) : Bool := s.helm.red.any fun r => r.inst.isSome && decide (r.sail = v.1)
  updFry s fun f =>
    { f with verdict := some (m.sail, m.excluded), past := (f.past ++ f.verdict.toList).filter owed,
             ports := f.ports.map fun p =>
               { p with inLoad := p.inLoad.filter fun n => decide (n = m.sail) || decide (2 ^ 47 ≤ (m.sail - n).toNat) },
             awaiting := if m.sail = instSail s then none else f.awaiting }

/-- A verdict is recorded and acted on (R445). -/
def applyVerdict (s : State) (m : VerdictMsg) : State :=
  let selfOut : Bool := decide (s.fry.node ∈ m.excluded)
  let s := setReg s Reg.fryEprec
    (flg m.partialSail 31 ||| flg m.many 30 ||| flg selfOut 29 ||| fld (m.sail.toNat % 4096) 17 ||| fld m.members.toNat 0)
  let s := takeVerdict s m
  let s := if m.partialSail then markPartial s (m.sail - s.fry.sailofs) else s
  if selfOut ∧ m.sail = instSail s then leaveEpoch s else s

/-- How many modules announce a node ID. -/
def nodeCount (s : State) (node : BitVec 16) : Nat := (s.fry.known.map (·.node)).count node

/-- TICK_REPORT (R442, R444, R446): the root records a report of the open sailing; another module passes it on along the
tick tree. -/
def execTickReport (node : BitVec 16) (sail : Sail) (s : State) : Result :=
  .next (if isRoot s then
    match s.fry.collect with
    | some (n, _) =>
      if s.hx1 ∧ sail = n ∧ s.fry.reports.count node < nodeCount s node then
        updFry s fun f => { f with reports := f.reports ++ [node] }
      else s
    | none => s
  else match s.fry.upPort with
    | some p => if ferryActive s then sendOn s p (.tickReport node sail) else s
    | none => s)

/-- Insert a node ID in rising order. -/
def insertId (n : BitVec 16) : List (BitVec 16) → List (BitVec 16)
  | [] => [n]
  | a :: t => if n < a then n :: a :: t else a :: insertId n t

/-- Known nodes that have not reported, the lowest first. -/
def missingNodes (s : State) : List (BitVec 16) :=
  (s.fry.reports.foldl List.erase (s.fry.known.map (·.node))).foldr insertId []

/-- VERDICT_SEND (R444): every node has reported, or WIN µs have passed since the root's tick. -/
def execVerdictSend (s : State) : Result :=
  .next <| match s.fry.collect with
    | none => s
    | some (sail, at_) =>
      let miss := missingNodes s
      let win := getField s Reg.fryEpoch 7 0
      if s.hx1 ∧ s.wdn.held = false ∧ (miss = [] ∨ at_ + win * 1000 ≤ s.now) then
        let count := 1 + s.fry.reports.length
        let expect := getField s Reg.fryEpoch 31 15
        let want := if expect = 0 then s.fry.maxMembers else expect
        let m : VerdictMsg :=
          { sail := sail, members := BitVec.ofNat 17 count, excluded := miss.take 120,
            many := decide (120 < miss.length), partialSail := decide (count < want) }
        let s := updFry s fun f => { f with collect := none, maxMembers := max f.maxMembers count }
        applyVerdict (sendDown s (.verdict m)) m
      else s

/-- VERDICT (R445): one comes down the tick tree. -/
def execVerdict (msg : VerdictMsg) (s : State) : Result :=
  .next (if ferryActive s ∧ isRoot s = false ∧ s.fry.upPort.isSome then
    applyVerdict (sendDown s (.verdict msg)) msg
  else s)

/-- VERDICT_TIMEOUT (R445): no verdict WIN + 5 µs after the tick. -/
def execVerdictTimeout (s : State) : Result :=
  .next <| match s.fry.awaiting with
    | some t => if t + (getField s Reg.fryEpoch 7 0 + 5) * 1000 ≤ s.now then leaveEpoch s else s
    | none => s

/-- REJOIN_REQUEST (R446, R447): the root answers with a target 2 sailings ahead and its MEPOCH; another module passes
the request on toward the root. -/
def execRejoinRequest (node : BitVec 16) (s : State) : Result :=
  .next (if isRoot s then
    if s.hx1 ∧ runs s ∧ s.wdn.held = false then
      sendToward s node (.rejoinAnswer node (instSail s + 2) s.fry.mepoch)
    else s
  else if ferryActive s then sendToRoot s (.rejoinAsk node)
  else s)

/-- REJOIN_ANSWER (R446, R447): the target and the MEPOCH are kept until the target's tick; an answer to another module
goes on toward it. -/
def execRejoinAnswer (dest : RejoinTo) (mepoch : BitVec 16) (s : State) : Result :=
  .next (if dest.node ≠ s.fry.node then
    if ferryActive s then sendToward s dest.node (.rejoinAnswer dest.node dest.target mepoch) else s
  else if s.hx1 ∧ runs s ∧ isRoot s = false then updFry s fun f => { f with rejoin := some (dest.target, mepoch) }
  else s)

/-! ## Halos and combines (R449, R456, R458) -/

/-- A halo slot takes its bits. -/
def fillSlot (s : State) (key : Nat) (v : BitVec 1024) : State :=
  updFry s fun f => { f with slots := storePut 0 f.slots key v }

/-- A slot becomes fresh. -/
def freshen (s : State) (key : Nat) : State :=
  updFry s fun f => if key ∈ f.fresh then f else { f with fresh := f.fresh ++ [key] }

/-- HALO_ARRIVAL (R449): `sail` is the installation sailing in which the plane was posted. -/
def execHaloArrival (side : Side) (slot : BitVec 6) (sail : Sail) (seq : Nat) (bits : BitVec 1024) (s : State) :
    Result :=
  let key := haloKey side slot.toNat
  let late (s : State) : State := countField s Reg.fryHalocnt 23 16 1
  .next (if s.hx1 = false ∨ runs s = false ∨ s.wdn.held ∨ (portAt s (sideIndex side)).phase ≠ .up then s
  else
    let d := (sail - instSail s).toNat
    let e := storeGet 0 s.fry.waits key
    if d = 0 then
      if seq < e then late s
      else
        let s := freshen (fillSlot s key bits) key
        if e < seq then countField s Reg.fryHalocnt 15 8 1 else s
    else if d = 1 then
      updFry (fillSlot s key bits) fun f => if key ∈ f.early then f else { f with early := f.early ++ [key] }
    else if 2 ^ 47 ≤ d then late s
    else s)

/-- The k-th reduction of a sailing is outstanding. -/
def reductionOpen (s : State) (sail : Sail) (k : Nat) : Bool :=
  s.helm.red.any fun r => decide (r.inst = some k) && decide (r.sail = sail)

/-- A contribution to the k-th reduction of a sailing is of use: that reduction is outstanding, or is yet to issue
in the current sailing or in the next one, which the sender may have opened first (R456, R458). -/
def combineWanted (s : State) (sail : Sail) (k : Nat) : Bool :=
  reductionOpen s sail k || (decide (sail = instSail s) && decide (s.fry.reds ≤ k)) || decide (sail = instSail s + 1)

/-- The ports on which the tree of shortest paths rooted at a node goes on from here (R456). -/
def onwardPorts (s : State) (node : BitVec 16) : List (BitVec 2) :=
  match s.fry.known.find? (fun n => decide (n.node = node)) with
  | some n => allPorts.filter fun p => n.onward.getLsbD p.toNat
  | none => []

/-- A contribution is taken: of a node ID as many as modules announce it, since COMBINE traffic is not affected by a
duplicate (R434). -/
def takeContribution (s : State) (c : Contribution) : State :=
  let here := s.fry.contrib.filter fun x =>
    decide (x.node = c.node) && decide (x.sail = c.sail) && decide (x.k = c.k)
  if s.hx1 ∧ runs s ∧ combineWanted s c.sail c.k ∧ here.length < max 1 (nodeCount s c.node) then
    updFry s fun f => { f with contrib := f.contrib ++ [c] }
  else s

/-- COMBINE_CONTRIBUTION (R446, R455, R456, R458): it goes on along its sender's tree, and is taken. -/
def execCombineContribution (node : BitVec 16) (sail : Sail) (k : Nat) (isCensus : Bool) (value : Nat) (s : State) :
    Result :=
  let s := if ferryActive s then sendAll s (onwardPorts s node) (.contribution node sail k isCensus value) else s
  .next (takeContribution s { node := node, sail := sail, k := k, isCensus := isCensus, value := value })

/-- COMBINE_TIMEOUT (R458): the reduction completes without what has not arrived. In a held module the sailing is frozen
(R245, log 199). -/
def execCombineTimeout (s : State) : Result :=
  let late (x : Reduction × Nat) : Bool :=
    decide (x.1.since + getField s Reg.fryTmo 15 8 * 1000 ≤ s.now) && !allContributed s x.1.sail x.2
  .next <| if s.wdn.held then s else match (openInstallation s).find? late with
    | none => s
    | some (r, k) => finishInstallation (flagPartial (fryEvent s 4)) r k

end Sys2Proof.Machine
end

