-- ==== Sys2Proof/Machine/Packets.lean ====
section
/-!
DEFINITION. Addressed packets and LINK_SEND (R288, R434, R459, R460).
-/
namespace Sys2Proof.Machine

/-- A packet is dropped and answered with NODEUNREACH to its source. -/
def refusePacket (s : State) (src : BitVec 16) (seq : Nat) : State :=
  sendToward s src (.packetAck s.fry.node src seq 0x0D)

/-- A packet arrives: it is for this module, goes on toward its destination, or is refused (R434, R459). -/
def arrivingPacket (s : State) (src dst : BitVec 16) (seq : Nat) (onward : LinkMsg) (here : State → State) : State :=
  if ferryActive s = false ∨ portsUp s = 0 then s
  else if src ∈ s.fry.dups ∨ dst ∈ s.fry.dups then refusePacket s src seq
  else if dst = s.fry.node then here s
  else if (portToward s dst).isNone then refusePacket s src seq
  else sendToward s dst onward

/-- NI of a Ferry port (R410). -/
def portNi (n : BitVec 2) : Nat :=
  match n.toNat with
  | 0 => 8
  | 1 => 13
  | 2 => 5
  | _ => 10

/-- Status of a remote write that was answered so (R421); DATAERR is not returned to writes. -/
def remoteStatus (r : Resp) : Nat :=
  match r with
  | .ok | .dataerr => 0
  | .unmapped | .protect => 4
  | _ => 0x0D

/-- A WRITE packet is performed into module DRAM through the receiving port's interface. One that meets no response in
time may or may not have been performed (R418). -/
def remoteWrite (s : State) (port : BitVec 2) (addr : BitVec 64) (bytes : List Byte) : State × Nat :=
  let ni := portNi port
  if dramSize < addr.toNat + bytes.length then (s, 4)
  else if bytes = [] then (s, 0)
  else if ni ∈ s.fry.late then
    let s := updFry s fun f => { f with late := f.late.erase ni }
    (if freeNat s % 2 = 0 then usedFree s else (nocWrite (usedFree s) ni addr.toNat bytes []).1, remoteStatus .timeout)
  else
    let (s, r) := nocWrite s ni addr.toNat bytes []
    (s, remoteStatus r)

/-- PKT_WRITE (R459, R460): the last WRITE of a LINK_SEND is acknowledged, with the first failing status of all
its WRITEs. -/
def execPktWrite (origin : PktFrom) (dst : BitVec 16) (seq : Nat) (last : Bool) (addr : BitVec 64) (bytes : List Byte)
    (s : State) : Result :=
  let src := origin.node
  .next (arrivingPacket s src dst seq (.packet src dst seq last none addr bytes) fun s =>
    let before := storeGet 0 s.fry.rxStatus src.toNat
    let (s, st) := remoteWrite s origin.port addr bytes
    let st := if before = 0 then st else before
    let s := updFry s fun f =>
      { f with rxStatus := storePut 0 f.rxStatus src.toNat (if last then 0 else st) }
    if last then sendToward s src (.packetAck s.fry.node src seq (BitVec.ofNat 8 st)) else s)

/-- A remote message as the mailbox shows it: MCODE at bytes 4–7 and the message at 16–63; the other bytes
carry no stated value. -/
def remoteMail (s : State) (mcode : Word) (bytes : List Byte) : Raw64 :=
  let open_ := freeNat s
  BitVec.ofNat 512 (open_ % 2 ^ 32 + mcode.toNat * 2 ^ 32 + open_ / 2 ^ 32 % 2 ^ 64 * 2 ^ 64 +
    numOf (bytes.take 48) * 2 ^ 128)

/-- PKT_MAILBOX (R288): the message enters the mailbox queue, zero-padded, and is acknowledged then; while the
queue is full it waits. -/
def execPktMailbox (src dst : BitVec 16) (seq : Nat) (mcode : Word) (bytes : List Byte) (s : State) : Result :=
  .next (arrivingPacket s src dst seq (.packet src dst seq true (some mcode) 0 bytes) fun s =>
    if s.que.mail.length < 32 then
      let m : MailMsg := { raw := remoteMail s mcode bytes, id := src, remote := true, pos := 0 }
      let s := updQue (usedFree s) fun q => { q with mail := q.mail ++ [m] }
      sendToward s src (.packetAck s.fry.node src seq 0)
    else s)

/-- PKT_DOORBELL (R459): a doorbell write on a NODE pair of the source. -/
def execPktDoorbell (src dst : BitVec 16) (qp : BitVec 16) (cqHead : Bool) (val : Word) (s : State) : Result :=
  .next (arrivingPacket s src dst 0 (.doorbell src dst qp cqHead val) fun s =>
    let p := pairOf s qp.toNat
    if doorbellsOpen p = false then refuseDoorbell s 2
    else if p.ctype ≠ 2 ∨ p.client.toNat ≠ src.toNat then s
    else if cqHead then Sys2Proof.Machine.cqHead s qp.toNat (bits val 15 0)
    else sqTail s qp.toNat (bits val 15 0))

/-- PKT_NOTICE (R459): the node learns that the CQ of its NODE pair has received completions; the module keeps
no record of it. -/
def execPktNotice (src dst : BitVec 16) (qp : BitVec 16) (s : State) : Result :=
  .next (arrivingPacket s src dst 0 (.notice src dst qp) fun s => s)

/-- A LINK_SEND finishes: its packets are forgotten and it completes. -/
def endLink (s : State) (qp : BitVec 16) (pos : Nat) (status : Nat) : State :=
  let s := updFry s fun f =>
    { f with links := f.links.filter fun l => !(decide (l.qp = qp) && decide (l.pos = pos)) }
  complete s qp.toNat pos status 0 0

/-- The status that a LINK_SEND already has, of the read of its source. -/
def linkStatus (s : State) (qp : BitVec 16) (pos : Nat) : Nat :=
  match (pairOf s qp.toNat).disp.find? (fun d => decide (d.pos = pos)) with
  | some d => match d.work with | .link _ st => st.toNat | _ => 0
  | none => 0

/-- PKT_ACK (R459, R460): the acknowledgement of the last packet, or a refusal of any, completes the LINK_SEND; a refusal
comes from the destination or from a module on the way. -/
def execPktAck (src dst : BitVec 16) (seq : Nat) (status : BitVec 8) (s : State) : Result :=
  .next (arrivingPacket s src dst seq (.packetAck src dst seq status) fun s =>
    match s.fry.links.find? (fun l => decide (l.seq = seq) && (decide (l.node = src) || decide (status = 0x0D))) with
    | some l =>
      if status ≠ 0 then endLink s l.qp l.pos status.toNat
      else if l.last then endLink s l.qp l.pos (linkStatus s l.qp l.pos)
      else s
    | none => s)

/-- LINK_SEND_TIMEOUT (R460): no ACK within FRY_TMO.PKT µs of the last packet. -/
def execLinkSendTimeout (seq : Nat) (s : State) : Result :=
  .next <| match s.fry.links.find? (fun l => decide (l.seq = seq) && l.last) with
    | some l =>
      if l.sentAt + getField s Reg.fryTmo 31 16 * 1000 ≤ s.now then endLink s l.qp l.pos 0x0D else s
    | none => s

/-! ## LINK_SEND (R288) -/

/-- The payloads of the WRITE packets, with their offsets: up to 224 bytes each. -/
def linkChunks : Nat → Nat → List Byte → List (Nat × List Byte)
  | 0, _, _ => []
  | k + 1, off, bs => if bs = [] then [] else (off, bs.take 224) :: linkChunks k (off + 224) (bs.drop 224)

/-- One packet of a LINK_SEND is sent. -/
def sendLink (s : State) (node qp : BitVec 16) (pos : Nat) (last : Bool) (mcode : Option Word) (addr : Nat)
    (bs : List Byte) : State :=
  let seq := s.fry.linkSeq
  let l : LinkPacket := { seq := seq, node := node, qp := qp, pos := pos, last := last, sentAt := s.now }
  let s := updFry s fun f => { f with linkSeq := seq + 1, links := f.links ++ [l] }
  sendToward s node (.packet s.fry.node node seq last mcode (BitVec.ofNat 64 addr) bs)

/-- The packets of a REMOTE_WRITE. -/
def sendChunks (s : State) (node qp : BitVec 16) (pos dst : Nat) : List (Nat × List Byte) → State
  | [] => s
  | (off, bs) :: t => sendChunks (sendLink s node qp pos t.isEmpty none (dst + off) bs) node qp pos dst t

/-- What LINK_SEND refuses before any access, 0 where it passes. -/
def linkRefusal (s : State) (p : Pair) (mode len node src : Nat) (sp : Option Space) : Nat :=
  match sp with
  | none => 2
  | some sp =>
    if 2 ≤ mode ∨ (mode = 0 ∧ 65536 < len) ∨ (mode = 1 ∧ 48 < len) then 2
    else if sp = .host ∧ (p.ctype = 2 ∨ p.ctype = 3) then 3
    else if (portToward s (BitVec.ofNat 16 node)).isNone ∨ packetsRefused s (BitVec.ofNat 16 node) then 0x0D
    else if len ≠ 0 ∧ sp.leaves src len then 4
    else 0

/-- LINK_SEND (R288). -/
def execLinkSend (qp : BitVec 16) (resp : HostRead) (s : State) : Result :=
  let q := qp.toNat
  .next (onHead s q 8 fun f =>
    let p := pairOf s q
    let node := rawField f.raw 4 2
    let mode := rawField f.raw 6 1
    let sp := Space.of (rawField f.raw 7 1)
    let len := rawField f.raw 8 4
    let src := rawField f.raw 16 8
    let dst := rawField f.raw 24 8
    let bad := linkRefusal s p mode len node src sp
    match sp with
    | none => finishHead s q f 2 0 0
    | some sp =>
      if bad ≠ 0 ∨ len = 0 then finishHead s q f bad 0 0
      else if s.que.d3 ∧ sp = .host then s
      else match moveSource s p sp src len resp with
        | none => s
        | some (s, bs, st) =>
          if st ≠ 0 ∧ st ≠ 9 then finishHead s q f st 0 0
          else
            let n := BitVec.ofNat 16 node
            let first := s.fry.linkSeq
            let s := if mode = 1 then
                sendLink s n qp f.pos true (some (BitVec.ofNat 32 dst)) 0 (bs ++ List.replicate (48 - len) 0)
              else sendChunks s n qp f.pos dst (linkChunks len 0 bs)
            dispatchHead s q (.link (rangeFrom first (s.fry.linkSeq - first)) (BitVec.ofNat 8 st)))

end Sys2Proof.Machine
end

