-- ==== Sys2Proof/Machine/FaultCore.lean ====
section
/-!
DEFINITION. The fault manager's judgement and actions, and the tile repair (15).
-/
namespace Sys2Proof.Machine

/-- A change of the fault manager's state. -/
def updFlt (s : State) (f : FltState → FltState) : State := { s with flt := f s.flt }

/-- Key of an instance's history. -/
def histKey (src inst : Nat) : Nat := src * 512 + inst

/-- No events. -/
def FltHist.none : FltHist := { recent := [], total := 0, lasting := false }

/-- History of an instance. -/
def histOf (s : State) (src inst : Nat) : FltHist := storeGet FltHist.none s.flt.hist (histKey src inst)

/-- Committed FLT_SRCn. -/
def fltSrcOf (s : State) (src : Nat) : Word := storeGet 0 s.flt.src src

/-- Sailing x lies within W consecutive sailings that end with the current one; for W of 0 it is the current one. -/
def withinWindow (cur : Sail) (w : Nat) (x : Sail) : Bool := decide ((cur - x).toNat < max w 1)

/-- Events of a history within the current window (FLT_CNT). -/
def inWindow (h : FltHist) (cur : Sail) (w : Nat) : Nat := (h.recent.filter (withinWindow cur w)).length

/-- The event counted last is lasting: W is 0, or the last T events all fall within the window (R498). -/
def lastingNow (h : FltHist) (cur : Sail) (cfg : Word) : Bool :=
  let w := bits cfg 10 0
  let t := bits cfg 26 23
  decide (w = 0) || (decide (t ≤ h.recent.length) && (h.recent.take t).all (withinWindow cur w))

/-- An event is counted, and judged lasting or transient (R497, R498). -/
def countEvent (s : State) (src inst : Nat) : State × Bool :=
  let cfg := fltSrcOf s src
  let h := histOf s src inst
  let cur := eventSail s
  let h := { h with recent := (cur :: h.recent).take 15, total := satAdd h.total 1 0xFFFF }
  let lasting := lastingNow h cur cfg
  let h := { h with lasting := h.lasting || lasting }
  (updFlt s fun f => { f with hist := storePut FltHist.none f.hist (histKey src inst) h }, lasting)

/-- Nanoseconds that n ACLK take at the array clock in effect, N · 62.5 MHz (R60). -/
def aclkTime (s : State) (n : Nat) : Nat := (n * 16 + s.wdn.aclkEff - 1) / s.wdn.aclkEff

/-! ## Tile repair (R509–R513, R596) -/

/-- A log entry for an event's report. -/
def logReport (s : State) (kind : Nat) (r : FltReport) : State := logEntry s kind r.src.toNat r.inst.toNat r.detail

/-- FLT_LOST bit r (R511). -/
def setLost (s : State) (r : Nat) : State := setFlag s Reg.fltLost r

/-- Set fields of HLM_TMAPn (R58). -/
def setTmap (s : State) (n : Nat) (v : Word) : State := setReg s (Reg.hlmTmap + 4 * n) v

/-- The PEs of columns 64k and above. -/
def colsFrom (k : Nat) : Plane :=
  BitVec.ofNat peCount (repeatBits 10 1024 ((2 ^ (1024 - 64 * k) - 1) <<< (64 * k)))

/-- A plane after physical tile k of a tile row is bypassed: logical tile t ≥ k shows what t + 1 held, and
logical tile 15 shows zeros (R56). -/
def shiftTiles (row k : Nat) (p : Plane) : Plane :=
  let here := tileRowMask row
  let moved := ((p >>> 64) &&& colsFrom k) &&& ~~~ colsFrom 15
  mergePlane here ((p &&& ~~~ colsFrom k) ||| moved) p

/-- Bypass physical tile k of a tile row onto its spare (R509 step 3, R52, R56). -/
def bypassTile (s : State) (row k : Nat) : State :=
  let s := setTmap s row (setBits (tmap s row) 4 0 k)
  updArr s fun a =>
    { a with planes := a.planes.filterMap fun p =>
               let v := shiftTiles row k p.2
               if v = 0 then none else some (p.1, v),
             damage := a.damage.filter fun p => decide (keyTile p.1 ≠ row * 17 + 16) }

/-- The spare of a row may be used (R510). -/
def spareGood (s : State) (row : Nat) : Bool :=
  decide (rowByp s row = 0x1F) && decide (row ∉ s.flt.spareBad)

/-- A tile row is lost (R511, R57). -/
def loseRow (s : State) (row pcol : Nat) (r : FltReport) : State :=
  let s := setTmap s row (setBits (setBits (tmap s row) 13 9 pcol) 8 8 1)
  let s := logReport (setLost s row) 4 r
  let s := holdLostRows s
  order (updWdn s fun w => { w with degradedFor := true }) .degrade

/-- Step 3 for one ordered tile (R509–R511). -/
def substitute (s : State) (o : RepairOrder) : State :=
  match o.tile with
  | none => s
  | some (row, k) =>
    if rowLost s row ∨ rowByp s row = k then s
    else if spareGood s row ∧ k ≠ 16 then bypassTile s row k
    else loseRow s row k o.ev

/-- Step 4: C, D, X and Q become 0 and M becomes 1 in every PE. -/
def resetLatches (s : State) : State := setLatches s 0 0 0 allPes 0

/-- FLT_REPAIR for the last order of a repair (R509 step 6). -/
def noteRepair (s : State) (r : Repair) : State :=
  let us := min ((s.now - r.start) / 1000) 0xFFFF
  let (row, col) := match (r.orders.filterMap (·.tile)).getLast? with
    | some t => t
    | none => (match r.orders.head? with | some o => o.ev.inst.toNat / 17 | none => 0, 0x1F)
  setReg s Reg.fltRepair (fld row 24 ||| fld col 16 ||| fld us 0)

/-- The log entries of a finished repair, one for each order: REPAIRED or REPLAYED, or `kind` in their place. -/
def logOrders (s : State) (r : Repair) (kind : Option Nat) : State :=
  r.orders.foldl (fun s o => logReport s (kind.getD (if o.tile.isSome then 2 else 3)) o.ev) s

/-- The repair record is due when a tile was ordered (R512). -/
def recordAfter (s : State) (r : Repair) : State :=
  if r.orders.any (fun o => o.tile.isSome) then updFlt s fun f => { f with recordDue := true } else s

/-- The sailing in which a repair was ordered is abandoned as under ABANDON and flagged FAILED (R513), unless a tick
has closed it (R261). -/
def abandonFailed (s : State) (r : Repair) : State :=
  if passRuns s ∧ s.ttb.marked = false ∧ s.ttb.passSail = r.sail then
    updTtb (abandonPass (passFlag s 2)) fun t => { t with ckWait := false }
  else s

/-- NOCKPT (R513). -/
def noteNockpt (s : State) : State := setFlag s Reg.fltStat 6

/-- The checkpoint of the sailing is complete (R504, R513). -/
def ckptGood (s : State) : Bool := s.ttb.ckDone && getFlag s Reg.ldrCkptStat 31

/-- How an order falls (R513). A sailing that a failed repair has abandoned has sent no marker: a further repair in it
restores, and finds no pass to replay. -/
def repairCase (s : State) : RepairCase :=
  if s.mode = .load then .inLoad
  else if ckptGood s = false then .noCkpt
  else if s.ttb.sentFor = some s.ttb.passSail then .rollback
  else .full

/-- A repair or replay is ordered where none runs: the fault stop, and the Loader's discard (R509 step 1). A
restore and replay under R504 runs only over a complete checkpoint before the marker (R513). -/
def startRepair (s : State) (o : RepairOrder) : State :=
  let c := repairCase s
  if o.tile = none ∧ c ≠ .full then s
  else
    let s := updFlt s fun f =>
      { f with repair := some { step := .stopping, kind := c, orders := [o], start := s.now, later := [],
                                clearEnd := 0, sail := s.ttb.passSail } }
    let s := if passRuns s ∧ s.ttb.marked = false then updTtb s fun t => { t with cut := true } else s
    discardTransfers s

/-- An order joins the running repair, or waits for its replay base (R513). A restore and replay under R504 joins
too: the one restore serves it, and its REPLAYED is logged with the rest (DEDUCED, log 188). A lasting event of a tile
that is already ordered orders nothing more, and is logged (R500). -/
def joinRepair (s : State) (r : Repair) (o : RepairOrder) : State :=
  let put (r : Repair) : State := updFlt s fun f => { f with repair := some r }
  if r.step = .restoring then put { r with later := r.later ++ [o] }
  else if o.tile = none then (if r.kind = .full then put { r with orders := r.orders ++ [o] } else s)
  else if r.orders.any (fun x => decide (x.tile = o.tile)) then logReport s 1 o.ev
  else put { r with orders := r.orders ++ [o],
                    clearEnd := if r.step = .substituting then s.now + aclkTime s 2048 else r.clearEnd }

/-- Order a repair or replay (R503, R504, R513). -/
def orderRepair (s : State) (o : RepairOrder) : State :=
  match s.flt.repair with
  | some r => joinRepair s r o
  | none => startRepair s o

/-- Orders that waited for the replay base start their own fault stop (R513). -/
def startLater (s : State) (l : List RepairOrder) : State := l.foldl orderRepair s

/-- The repair ends. -/
def endRepair (s : State) (r : Repair) : State :=
  orderWaiting (startLater (updFlt s fun f => { f with repair := none }) r.later)

/-- A kernel is a timetable kernel of the current pass (R596). -/
def ofCurrentPass (s : State) (k : KernelReq) : Bool :=
  match k.owner with
  | .timetable sail pass _ => decide (sail = s.ttb.passSail) && decide (pass = s.ttb.pass)
  | _ => false

/-- A started kernel meets a fault stop: one of the current pass is removed without a report, any other ends
with FAULT (R596, R107). -/
def faultKernel (s : State) (k : KernelCtx) : State :=
  let s := copySlots s k
  if ofCurrentPass s k.req then s else reportKernel s k.req 5 ((k.slots[0]).toNat)

/-- The Helm stops for a repair (R110, R112, R596). -/
def faultStop (s : State) (r : Repair) : State :=
  let s := endGap s
  let run := s.helm.run
  let pre := s.helm.preempted
  let s := updHelm s fun h =>
    { h with run := none, preempted := none, red := [], probes := [], commits := [], halow := none,
             waited := false, noSlot := NoSlot.zero, stopReq := false, landing := false, steal := false,
             nq := h.nq.filter (fun k => !ofCurrentPass s k), uq := h.uq.filter (fun k => !ofCurrentPass s k) }
  let s := match run with | some k => faultKernel s k | none => s
  let s := match pre with | some k => faultKernel s k | none => s
  updFlt s fun f => { f with repair := some { r with
    step := .substituting,
    clearEnd := if r.orders.any (fun o => o.tile.isSome) then s.now + aclkTime s 2048 else s.now } }

/-- The replay pass (R262). -/
def startReplay (s : State) : State :=
  let s := updTtb s fun t =>
    { t with outq := retireCompletions t.outq, base := s.now, openAt := s.now, pass := t.pass + 1, phase := .replay,
             cut := false, ckDone := true,
             est := t.est.map fun _ => { state := .pending, late := false, ustat := 0, posted := false, doneAt := 0 } }
  settle (passFlag (passFlag s 4) 7)

/-! ## Actions (R500, R503) -/

/-- The physical tile is bypassed, its row is lost, or it is a spare already spent on its own fault (R503). -/
def tileOut (s : State) (row pcol : Nat) : Bool := rowLost s row || decide (rowByp s row = pcol)

/-- A lasting tile fault (R503, R511, R513). -/
def repairTile (s : State) (r : FltReport) : State :=
  let row := r.inst.toNat / 17
  let pcol := r.inst.toNat % 17
  if 16 ≤ row ∨ tileOut s row pcol ∨ s.wdn.held then logReport s 1 r
  else if pcol = 16 ∧ rowByp s row = 0x1F then
    let s := setTmap s row (setBits (tmap s row) 4 0 16)
    updFlt (logReport s 1 r) fun f => { f with recordDue := true }
  else orderRepair s { tile := some (row, pcol), ev := r }

/-- The action of a lasting event (R503). -/
def actOn (s : State) (act : Nat) (r : FltReport) : State :=
  match act with
  | 1 => repairTile s r
  | 2 =>
    if r.inst.toNat < 16 ∧ getFlag s Reg.fltIsomask r.inst.toNat then
      logReport (setFlag s Reg.nocIsoLo r.inst.toNat) 7 r
    else logReport s 1 r
  | _ => logReport s 1 r

/-- A transient event: logged with LOGT, and under R504 it orders a restore and replay. -/
def transientEvent (s : State) (cfg : Word) (r : FltReport) : State :=
  let s := if bit cfg 30 then logReport s 0 r else s
  let row := r.inst.toNat / 17
  if r.src = 1 ∧ bit cfg 29 ∧ ckptGood s ∧ s.ttb.marked = false ∧ runs s ∧ s.wdn.held = false ∧ row < 16 ∧
     tileOut s row (r.inst.toNat % 17) = false then
    orderRepair s { tile := none, ev := r }
  else s

/-- The sources that the fault manager judges by R498 (R501). -/
def judgedSource (src : Nat) : Bool := decide (src ≤ 0x0F) || decide (src = 0x13)

/-- An event reaches the fault manager (R498–R504). -/
def faultEvent (s : State) (r : FltReport) : State :=
  let cfg := fltSrcOf s r.src.toNat
  if judgedSource r.src.toNat = false ∨ bit cfg 31 = false then s
  else
    let (s, lasting) := countEvent s r.src.toNat r.inst.toNat
    if lasting then actOn s (bits cfg 28 27) r else transientEvent s cfg r

end Sys2Proof.Machine
end

