-- ==== Sys2Proof/Machine/Loader.lean ====
section
/-!
DEFINITION. The Loader's commands (07).
-/
namespace Sys2Proof.Machine

/-- A firmware submission (R226, R236). -/
def xsub (s : State) (wr : Writer) (load : Bool) : State :=
  onWrite s wr Reg.ldrXsubGo fun s =>
    if runs s = false then setReg s Reg.ldrXsubStat 2
    else if loaderRoom s = false then setReg s Reg.ldrXsubStat 1
    else acceptTransfer (setReg s Reg.ldrXsubStat 0)
      { blk := stagedBlock s Reg.ldrXsub, load := load, owner := .firmware }

/-- LDR_XSUB_LOAD (R226): a write to LDR_XSUB_GO with DIR 0. -/
def execLdrXsubLoad (wr : Writer) (s : State) : Result := .next (xsub s wr true)

/-- LDR_XSUB_STORE (R226): a write to LDR_XSUB_GO with DIR 1. -/
def execLdrXsubStore (wr : Writer) (s : State) : Result := .next (xsub s wr false)

/-- The Loader may begin a queued transfer (R225, R226, R509). -/
def loaderFree (s : State) : Bool :=
  s.hx1 && runs s && s.ldr.run.isNone && s.ldr.ckpt.isNone && s.ldr.restore.isNone && s.flt.repair.isNone

/-- The transfer runs. -/
def setRunning (s : State) (r : Running) : State := updLdr s fun l => { l with run := some r }

/-- A transfer that has started and moved nothing. -/
def begun (s : State) (t : Transfer) (moved : Nat) : Running :=
  { tr := t, status := 0, width := none, moved := moved, waits := false, fetched := [], before := snapshot s,
    after := snapshot s }

/-- The running transfer moves its data between buffers and planes: the planes of a load as fetched, or a store. -/
def movePlanes (s : State) (r : Running) : State :=
  let x := Xfer.of r.tr.blk
  let s := freshSlots s
  let done_ := { r with waits := false, fetched := [], before := snapshot s }
  if r.tr.load then
    let (t, width) := writeLoad s x r.fetched
    setRunning t { done_ with width := width, after := snapshot t }
  else
    let (t, st) := moveStore s x
    setRunning t { done_ with status := BitVec.ofNat 4 st, after := snapshot t }

/-- A transfer starts: it reads its descriptor again, fetches the memory of a load, and makes its plane accesses, for
which it waits while a clock change pauses the array or a self-test step runs (R214–R217, R221, R230, R506). Its
report follows at its completion. -/
def startTransfer (s : State) (t : Transfer) : State :=
  let x := Xfer.of t.blk
  if x.abs = false ∧ descValid (descAt s x.target) = false then reportTransfer s t 2
  else if x.empty then setRunning s (begun s t 0)
  else
    let (s, planes, st) := if t.load then fetchLoad s x else (s, [], 0)
    let r := { begun s t x.moved with status := BitVec.ofNat 4 st, fetched := planes }
    if slotsWait s then setRunning s { r with waits := true } else movePlanes s r

/-- The wait ends: the transfer that waited makes its plane accesses (R221, R506). -/
def resumeTransfer (s : State) : State :=
  match s.ldr.run with
  | some r => if r.waits ∧ slotsWait s = false then movePlanes s r else s
  | none => s

/-- TRANSFER_START (R216, R225): the head of the queue. -/
def execTransferStart (s : State) : Result :=
  .next (if loaderFree s then
    match s.ldr.queue with
    | [] => s
    | t :: rest => startTransfer (updLdr s fun l => { l with queue := rest }) t
  else s)

/-- The planes that the transfer which runs accesses, and whether it writes them: those of the running transfer, or of
a checkpoint. -/
def slotNeeds (s : State) : List (Nat × Bool) :=
  match s.ldr.run, s.ldr.ckpt with
  | some r, _ =>
    let x := Xfer.of r.tr.blk
    let (w, base, _) := xferShape s x
    let n := if r.tr.load then w else if x.abs then min w x.bitsOf else min (min w x.bitsOf) (descLw (descAt s x.target))
    if r.waits || x.empty then [] else (rangeFrom base n).map fun p => (p, r.tr.load)
  | none, some (planes, _) => planes.map fun p => (p, false)
  | none, none => []

/-- The Loader's share is owed: for ⌊64 ÷ SHARE⌋ − 1 consecutive ACLK a plane that the Loader may hold ready has found
no slot, and the Helm is about to issue (R219, R220). Which chunk planes it holds ready at an instant is not said: any
that its transfer accesses (DESIGN CHOICE, log 166). -/
def shareOwed (s : State) : Bool :=
  let share := getField s Reg.hlmShare 5 0
  match mayIssue s with
  | none => false
  | some k =>
    decide (share ≠ 0) && ((slotNeeds s).any fun p => decide (64 / share - 1 ≤ s.helm.noSlot.of p.1 p.2)) &&
      !s.helm.steal && !slotsWait s && !debugHolds s.helm && !stalled s k (fetched s k)

/-- LOADER_STEAL (R220): the Helm holds its next microword for one ACLK, which passes within this command and in which
the Loader has every slot. -/
def execLoaderSteal (s : State) : Result :=
  .next (if shareOwed s then
    countField (lateCheck (updHelm s fun h => { h with steal := true, gap := h.gap + 1, noSlot := NoSlot.zero }))
      Reg.ldrSteal 31 0 1
  else s)

/-- The live width that a load commits (R223, R224). -/
def commitWidth (s : State) (w : Option (Nat × Nat)) : State :=
  match w with
  | some (n, v) =>
    let d := descAt s n
    setDesc s n (descWithLw d (min v (descDw d)))
  | none => s

/-- TRANSFER_COMPLETE (R222, R223): the live width is committed and the status reported. A transfer that a self-test
step held up makes its plane accesses first. -/
def execTransferComplete (s : State) : Result :=
  let s := resumeTransfer s
  .next <| match s.ldr.run with
    | none => s
    | some r =>
      if slotsWait s ∨ r.waits then s
      else
        let s := updLdr (commitWidth s r.width) fun l => { l with run := none, bytes := l.bytes + r.moved }
        reportTransfer s r.tr r.status.toNat

/-- RESTORE_COMPLETE (R234, R262, R509 steps 5 and 6, R513). A held module repairs nothing (R527). -/
def execRestoreComplete (s : State) : Result :=
  .next <| match s.ldr.restore, s.flt.repair with
    | some planes, some r =>
      if r.step ≠ .restoring ∨ slotsWait s ∨ s.wdn.held then s
      else
        let base := s.ldr.ckBase
        let (s, clean) := restorePlanes s base planes 0
        let (s, bad, bs) := spanRead s (base + planes.length * planeSize) 1024
        let s := restoreWidths s bs
        let s := updLdr s fun l =>
          { l with restore := none, bytes := l.bytes + planes.length * planeSize + 1024 }
        let s := recordAfter (noteRepair s r) r
        let s :=
          if clean = false ∨ bad then logOrders (noteNockpt (abandonFailed s r)) r (some 5)
          else
            let s := logOrders s r none
            if r.kind = .rollback then
              let s := setFlag s Reg.fltStat 7
              r.orders.foldl (fun s o => logReport s 6 o.ev) s
            else if s.ttb.cut then startReplay s
            else s
        endRepair s r
    | _, _ => s

end Sys2Proof.Machine
end

