-- ==== Sys2Proof/Machine/Timetable.lean ====
section
/-!
DEFINITION. The Timetable unit's commands other than ticks: release, notifications, deadlines, completions,
commits and the checkpoint's end (08).
-/
namespace Sys2Proof.Machine

/-- The pass may release entries: it runs, its checkpoint has been ordered, and neither a hold, a cut nor a
clock pause stands in the way (R254, R257, R260–R262). -/
def releasing (s : State) : Bool :=
  s.hx1 && runs s && passRuns s && !s.ttb.marked && !s.ttb.cut && !s.ttb.ckWait && !s.wdn.held && !s.helm.held &&
    !s.helm.paused

/-- Entry i may be released (R254). -/
def releasable (s : State) (i : Nat) : Option Entry :=
  match entryAt s i with
  | none => none
  | some e =>
    if releasing s ∧ (estAt s i).state = .pending ∧ e.start * 1000 ≤ s.now - s.ttb.base ∧
       e.deps.all (fun d => decide ((estAt s d).state = .done) && (estAt s d).posted) then some e else none

/-- The instant from which entry i has been ready: its START, the end of its last dependency, or the instant from which
the pass releases entries (R254, R261). -/
def readyAt (s : State) (e : Entry) : Nat :=
  e.deps.foldl (fun t d => max t (estAt s d).doneAt) (max s.ttb.openAt (s.ttb.base + e.start * 1000))

/-- A released entry's unit takes it now. -/
def takesNow (s : State) (e : Entry) : Bool :=
  match e.type.toNat with
  | 1 => s.ttb.ckDone && helmRoom s (kernelOfBlock e.payload .firmware)
  | 2 => loaderRoom s
  | 3 => loaderRoom s
  | _ => true

/-- An entry of lower index that became ready in the same NCLK is submitted before entry i (R254). -/
def lowerFirst (s : State) (i : Nat) (e : Entry) : Bool :=
  (List.range i).any fun j =>
    match releasable s j with
    | some x => takesNow s x && decide (readyAt s x = readyAt s e)
    | none => false

/-- Entry i is submitted. -/
def submitted (s : State) (i : Nat) (st : EState) : State := setEst s i { estAt s i with state := st }

/-- The owner of the work of entry i. -/
def entryOwner (s : State) (i : Nat) : Submitter := .timetable s.ttb.passSail s.ttb.pass i

/-- Pass up to n of the oldest held descriptors of a pair to dispatch (R248, R294). -/
def releaseHeld : List Fetched → Nat → List Fetched
  | [], _ => []
  | f :: t, n =>
    if f.held ∧ 0 < n then { f with held := false } :: releaseHeld t (n - 1) else f :: releaseHeld t n

/-- A RELEASE entry's effect; a replay releases none (R262). -/
def releasePair (s : State) (e : Entry) : State :=
  if s.ttb.pass ≠ 0 then s
  else
    let q := blkField e.payload 0 2
    let p := pairOf s q
    if p.st = .free then s else setPair s q { p with fetched := releaseHeld p.fetched (blkField e.payload 2 2) }

/-- A released entry goes to its unit; a KERNEL or transfer waits for room in its unit's queue, and a KERNEL for
the checkpoint (R248, R254, R257). -/
def releaseEntry (s : State) (i : Nat) (e : Entry) : State :=
  match e.type.toNat with
  | 0 => finishEntry s i .done 0
  | 1 =>
    let k := kernelOfBlock e.payload (entryOwner s i)
    if s.ttb.ckDone ∧ helmRoom s k then enqueueKernel (submitted s i .submitted) k else s
  | 2 =>
    if loaderRoom s then
      acceptTransfer (submitted s i .submitted) { blk := e.payload, load := true, owner := entryOwner s i }
    else s
  | 3 =>
    if loaderRoom s then
      acceptTransfer (submitted s i .submitted) { blk := e.payload, load := false, owner := entryOwner s i }
    else s
  | 4 => finishEntry (releasePair s e) i .done 0
  | _ => submitted s i .notifying

/-- ENTRY_RELEASE (R254): entries released in one NCLK are submitted in ascending order of their indices. -/
def execEntryRelease (idx : BitVec 8) (s : State) : Result :=
  .next <| match releasable s idx.toNat with
    | some e => if lowerFirst s idx.toNat e then s else releaseEntry s idx.toNat e
    | none => s

/-- NOTIFY_RECORD_POST (R595): a released NOTIFY entry enters the notification queue of 16 records. -/
def execNotifyRecordPost (idx : BitVec 8) (s : State) : Result :=
  let i := idx.toNat
  .next <| match entryAt s i with
    | none => s
    | some e =>
      if s.hx1 ∧ s.wdn.held = false ∧ (estAt s i).state = .notifying ∧ s.ttb.cut = false ∧ s.ttb.ntf.length < 16 then
        let r : NtfRecord :=
          { idx := i, tag := e.tag, body := e.payload, sail := s.ttb.sail, pass := s.ttb.pass }
        let s := updTtb s fun t => { t with ntf := t.ntf ++ [r] }
        if e.ack then submitted s i .acking else finishEntry s i .done 0
      else s

/-- DEADLINE_EXPIRY (R256): LATE in the entry and in the sailing; the entry runs on. -/
def execDeadlineExpiry (idx : BitVec 8) (s : State) : Result :=
  let i := idx.toNat
  .next <| match entryAt s i with
    | none => s
    | some e =>
      let x := estAt s i
      if s.hx1 ∧ runs s ∧ s.wdn.held = false ∧ passRuns s ∧ s.ttb.marked = false ∧ e.deadline ≠ 0 ∧
         e.deadline * 1000 ≤ s.now - s.ttb.base ∧ x.finished = false ∧ x.late = false then
        passFlag (setEst s i { x with late := true }) 3
      else s

/-- TIMETABLE_COMPLETION_POST (R290): the k-th completion that waits, the oldest of its pair. -/
def execTimetableCompletionPost (k : Nat) (s : State) : Result :=
  .next <| match s.ttb.outq[k]? with
    | none => s
    | some c =>
      let q := c.qp.toNat
      let p := pairOf s q
      if s.hx1 = false ∨ s.wdn.held ∨ (s.ttb.outq.take k).any (fun x => decide (x.qp = c.qp)) then s
      else
        let gone : Bool := decide (p.st ≠ .active) || decide (p.cqSize = 0) || (s.que.d3 && hostRing p)
        if gone = false ∧ cqRoom p = false then s
        else
          let s := updTtb s fun t => { t with outq := t.outq.eraseIdx k }
          let (sail, pass, flags) := c.past.getD (s.ttb.sail, s.ttb.pass, s.ttb.passFlags)
          let s := if gone then s
            else writeCompletion s q sail c.tag c.status.toNat c.ustat.toNat pass true false
              (fld c.idx 0 ||| fld flags.toNat 8)
          if c.live then settle (setEst s c.idx { estAt s c.idx with posted := true, doneAt := s.now }) else s

/-- CHECKPOINT_COMPLETE (R233, R257): the planes and live widths stand in module DRAM. -/
def execCheckpointComplete (s : State) : Result :=
  .next <| match s.ldr.ckpt with
    | none => s
    | some (planes, sail) =>
      if slotsWait s ∨ s.ldr.run.isSome ∨ s.flt.repair.isSome then s
      else
        let base := s.ldr.ckBase
        let s := copyPlanes s base planes 0
        let s := spanWrite s (base + planes.length * planeSize) (liveWidths s)
        let s := updLdr s fun l =>
          { l with ckpt := none, ckPlanes := planes, bytes := l.bytes + planes.length * planeSize + 1024 }
        let s := setReg s Reg.ldrCkptStat
          (flg true 31 ||| fld planes.length 16 ||| BitVec.ofNat 32 (sail.toNat % 65536))
        if s.wdn.held then s
        else settle (updTtb s fun t =>
          { t with ckDone := true, phase := if t.phase = .checkpoint then .running else t.phase })

/-- CLOCK_PAUSE_END (R60, R221): 3.0 µs after the tick the Helm may issue and the Loader may access planes again. -/
def execClockPauseEnd (s : State) : Result :=
  .next (if s.helm.paused ∧ s.helm.pauseEnd ≤ s.now then
    let s := updTtb (updHelm s fun h => { h with paused := false, noSlot := NoSlot.zero }) fun t => { t with openAt := s.now }
    orderWaiting (resumeTransfer s)
  else s)

/-- FRAME_SYNC_OUT_END (R243): the output's high time ends. -/
def execFrameSyncOutEnd (s : State) : Result :=
  .next <| match s.ttb.syncEnd with
    | some t => if t ≤ s.now ∧ s.wdn.held = false then
        updTtb s fun t => { t with syncOut := false, syncEnd := none } else s
    | none => s

/-- TTB_TLOAD_COMMIT (R249): a commit starts; while one runs, CSTAT reads BUSY. -/
def execTtbTloadCommit (wr : Writer) (s : State) : Result :=
  .next (onWrite s wr Reg.ttbTloadCommit fun s => if s.ttb.tload = none then
    setReg (updTtb s fun t => { t with tload := some (BitVec.ofNat 4 (getField s Reg.ttbTload 3 0)) }) Reg.ttbTloadCstat 8
  else s)

/-- Bytes of a slot's image. -/
def slotBytes : Nat := 17408

/-- What stands for an image whose read was not answered with data: free bytes (R249 names no code for it; log 183). -/
def lostImage (s : State) : State × List Byte := (usedFree s, (List.range slotBytes).map fun i => byteOf (freeNat s) i)

/-- The image of a slot in Bank 1, read over the network (R249, R410, R419). -/
def slotImage (s : State) (n : Nat) : State × List Byte :=
  match nocRead s 4 (bankAddr 1 (0x700000 + n * 0x5000)) slotBytes with
  | (t, .ok, bs) => (t, bs)
  | (t, .dataerr, bs) => (t, bs)
  | (t, _, _) => lostImage t

/-- A slot's contents are committed: at once, or at the next tick for the active slot (R250). Before the first tick no
slot is active, and every commit takes effect at once (DEDUCED, log 201). -/
def commitSlot (s : State) (n : BitVec 4) (t : Timetable) : State :=
  updTtb s fun x =>
    if x.ticked ∧ n = x.active then { x with staged := some t }
    else { x with slots := storePut none x.slots n.toNat (some t) }

/-- The image of the slot that a commit names is checked, and committed where it passes (R249, R250). -/
def endCommit (s : State) (n : BitVec 4) (img : List Byte) : State :=
  let (code, idx) := checkImage img
  let s := updTtb s fun t => { t with tload := none }
  let s := setReg s Reg.ttbTloadCstat (fld idx 8 ||| fld code 0)
  if code = 0 then commitSlot s n (parseTimetable img) else s

/-- TLOAD_COMMIT_DONE (R249, R250). -/
def execTloadCommitDone (s : State) : Result :=
  .next <| match s.ttb.tload with
    | none => s
    | some n =>
      let (s, img) := slotImage s n.toNat
      endCommit s n img

/-- TTB_SW_COMMIT (R251). -/
def execTtbSwCommit (wr : Writer) (s : State) : Result :=
  .next (onWrite s wr Reg.ttbSwCommit fun s =>
    let w : Switch :=
      { slot := BitVec.ofNat 4 (getField s Reg.ttbSw 3 0), asap := getFlag s Reg.ttbSw 4,
        tgt := BitVec.ofNat 48 (reg2 s Reg.ttbSwTgtLo Reg.ttbSwTgtHi), bind := none, since := s.now }
    match requestSwitch s w with
    | (s, true) => setReg s Reg.ttbSwCstat 0
    | (s, false) => setReg s Reg.ttbSwCstat 1)

/-- TTB_ACK (R248): finishes a NOTIFY entry of the current pass that waits for it. -/
def execTtbAck (wr : Writer) (val : Word) (s : State) : Result :=
  let i := bits val 7 0
  .next (onWrite s wr Reg.ttbAck fun s => if (estAt s i).state = .acking ∧ s.ttb.cut = false then finishEntry s i .done 0
  else s)

/-- TTB_NTF_POP (R595). -/
def execTtbNtfPop (wr : Writer) (s : State) : Result :=
  .next (onWrite s wr Reg.ttbNtfPop fun s => updTtb s fun t => { t with ntf := t.ntf.tail })

end Sys2Proof.Machine
end

