-- ==== Sys2Proof/Machine/Fabric.lean ====
section
/-!
DEFINITION. The Shanik fabric: configuration engine, regions, clock trees, I/O banks, camera ports, queue
controllers and the hard interfaces to the module (14).
-/
namespace Sys2Proof.Machine

/-! ## Configuration (R486–R490) -/

/-- Store a frame, indices rising. -/
def putFrame (i : Nat) (p : BitVec 8128) : List (Nat × BitVec 8128) → List (Nat × BitVec 8128)
  | [] => [(i, p)]
  | (j, q) :: t => if i < j then (i, p) :: (j, q) :: t else if i = j then (i, p) :: t else (j, q) :: putFrame i p t

/-- The refusal code of a FAB_CFG_COMMIT, 0 where it starts (R486). -/
def cfgRefusal (s : State) : Nat :=
  let ctl := reg s Reg.fabCfgCtl
  let a := reg2 s Reg.fabCfgSrcLo Reg.fabCfgSrcHi
  if s.fab.engine.isSome then 1
  else if regionRuns s (bits ctl 29 27) then 2
  else if (if bits ctl 31 30 = 1 then bankSize else dramSize) < a + 1024 * bits ctl 8 0 then 3
  else 0

/-- FAB_CFG_COMMIT (R486). -/
def execFabCfgCommit (wr : Writer) (s : State) : Result :=
  .next (onWrite s wr Reg.fabCfgCommit fun s =>
    let code := cfgRefusal s
    if code ≠ 0 then setField s Reg.fabCfgCstat 3 0 code
    else
      let s := setReg s Reg.fabCfgCstat 0
      let ctl := reg s Reg.fabCfgCtl
      if bits ctl 8 0 = 0 then s
      else updFab s fun f => { f with
        asleep := false,
        engine := some { bank3 := decide (bits ctl 31 30 = 1), addr := reg2 s Reg.fabCfgSrcLo Reg.fabCfgSrcHi,
                         region := bits ctl 29 27, left := bits ctl 8 0 } })

/-- A frame is discarded and counted (R487). -/
def discardFrame (s : State) : State := fabEvent (countField s Reg.fabCfgCstat 15 8 1) 0

/-- A frame that a region can take (R487). -/
def frameGood (region : Nat) (bs : List Byte) : Bool :=
  decide (numOf (bs.take 1) = region) && decide (numOf ((bs.drop 1).take 1) = 1) &&
    decide (numOf ((bs.drop 2).take 2) ≤ 455) && decide (numOf ((bs.drop 1020).take 4) = (crc32c (bs.take 1020)).toNat)

/-- Store a frame in its region (R487); one that has begun to run stays RUNNING (log 117). -/
def storeFrame (s : State) (region : Nat) (bs : List Byte) : State :=
  let x := regionOf s region
  let i := numOf ((bs.drop 2).take 2)
  let fs := putFrame i (BitVec.ofNat 8128 (numOf ((bs.drop 4).take 1016))) x.frames
  countField
    (setRegion s region
      { x with frames := fs, newRam := if 384 ≤ i ∧ i ∉ x.newRam then x.newRam ++ [i] else x.newRam,
               phase := if x.phase = .running then .running else if fs.length = 456 then .ready else .loading })
    Reg.fabCfgCstat 31 16 1

/-- CONFIG_FRAME (R487): the engine reads its next frame. -/
def execConfigFrame (s : State) : Result :=
  .next (match s.fab.engine with
  | none => s
  | some e =>
    let s := updFab s fun f => { f with
      engine := if e.left ≤ 1 then none else some { e with addr := e.addr + 1024, left := e.left - 1 } }
    let (s, ok, bs) : State × Bool × List Byte :=
      if e.bank3 then
        let (s, bad, bs) := homeRead s 3 e.addr 1024
        (s, !bad, bs)
      else
        let (s, r, bs) := nocRead s 6 e.addr 1024
        (s, decide (r = .ok), bs)
    if ok ∧ frameGood e.region bs then storeFrame s e.region bs else discardFrame s)

/-- The engine is writing frames for region n. -/
def loadsRegion (s : State) (n : Nat) : Bool :=
  match s.fab.engine with
  | some e => decide (e.region = n)
  | none => false

/-- A GO is refused (R488). -/
def refuseGo (s : State) (code : Nat) : State := fabEvent (setField s Reg.fabRcmdCstat 3 0 code) 1

/-- REGION_GO (R488): the checks before the readback. -/
def execRegionGo (wr : Writer) (r : BitVec 3) (s : State) : Result :=
  let n := r.toNat
  .next (onWrite s wr Reg.fabRcmd fun s =>
  if (regionOf s n).phase ≠ .ready then refuseGo s 1
  else if loadsRegion s n then refuseGo s 2
  else if runs s = false ∧ s.mode ≠ .load then refuseGo s 3
  else
    updFab (setRegion (setField s Reg.fabRcmdCstat 3 0 0) n { regionOf s n with going := true, goAt := s.now })
      fun f => { f with asleep := false })

/-- CRC-32C of a region's payloads in index order (R488). -/
def regionCrc (x : Region) : Word := crc32c (x.frames.flatMap fun f => bytesOf f.2.toNat 1016)

/-- The first failing check of R488 from the fourth on, which the readback serves. -/
def goRefusal (s : State) (r : Nat) (crc : Word) : Nat :=
  let x := regionOf s r
  if crc ≠ reg s (Reg.fabRexp + 4 * r) then 4
  else if (regionFree s r ∧ otherRegion r (regionLive s)) ∨ otherRegion r (regionFree s) then 5
  else if getFlag s (Reg.fabIobank + 4 * (r / 2)) 0 ∧ Config.padLvds (padFrames x) (r / 2) then 6
  else if freePairs s < (sqBlocks s r).length then 7
  else 0

/-- A FABRIC pair of block n, as it starts (R475, R297). -/
def fabricPair (s : State) (n : Nat) : Pair :=
  { Pair.none with
    st := .active, ctype := 3, client := BitVec.ofNat 20 n, sqSize := 64, cqSize := 256,
    prio := BitVec.ofNat 2 (bits (qcfgOf s n) 25 24), noirq := true, phase := true, open_ := true,
    taken := s.que.posBase }

/-- Bind an SQ block to the lowest FREE pair (R475). -/
def bindBlock (s : State) (n : Nat) : State :=
  match lowestFree s with
  | none => s
  | some q => setBlock (setPair s q (fabricPair s n)) n { blockQ s n with pair := some (BitVec.ofNat 16 q) }

/-- GO_CRC_DONE (R488, R489): the readback ends, 29.0 µs after the GO. -/
def execGoCrcDone (r : BitVec 3) (s : State) : Result :=
  let n := r.toNat
  let x := regionOf s n
  .next (if x.going = false ∨ s.now < x.goAt + 29000 then s
  else
    let s := setRegion s n { x with going := false }
    if x.phase ≠ .ready then refuseGo s 1
    else if loadsRegion s n then refuseGo s 2
    else
    let crc := regionCrc x
    let s := setReg s (Reg.fabRcrc + 4 * n) crc
    let code := goRefusal s n crc
    if code ≠ 0 then refuseGo s code
    else
      let s := (regionBlocks n).foldl (fun s b => setBlock s b QBlock.none) s
      let s := (regionBlocks n).foldl loadRam s
      let s := (sqBlocks s n).foldl bindBlock s
      setRegion s n { x with phase := .running, going := false, newRam := [], ffs := initialBits s n,
                              runAt := s.now, sail := s.fab.sail, tick := false, tickIn := none })

/-- PIN_RELEASE (R489): the pins of a region leave pad default 1.0 µs after it began to run. -/
def execPinRelease (r : BitVec 3) (s : State) : Result :=
  let n := r.toNat
  .next (if regionRuns s n ∧ (regionOf s n).runAt + 1000 ≤ s.now then
    setRegion s n { regionOf s n with pinsOn := true } else s)

/-- REGION_STOP (R490). -/
def execRegionStop (wr : Writer) (r : BitVec 3) (s : State) : Result :=
  .next (onWrite s wr Reg.fabRcmd fun s => setField (stopRegion s r.toNat) Reg.fabRcmdCstat 3 0 0)

/-- REGION_CLEAR (R490). -/
def execRegionClear (wr : Writer) (r : BitVec 3) (s : State) : Result :=
  let n := r.toNat
  .next (onWrite s wr Reg.fabRcmd fun s =>
  if regionRuns s n then setField s Reg.fabRcmdCstat 3 0 1
  else setField (setRegion s n { regionOf s n with phase := .empty, frames := [], newRam := [] })
    Reg.fabRcmdCstat 3 0 0)

/-! ## Clocks (R483–R485) -/

/-- Trees of a region whose source or divider changes. -/
def changedTrees (old new : Word) : List Nat := (List.range 4).filter fun k => decide (treeOf old k ≠ treeOf new k)

/-- A tree of a RUNNING region begins to change from its committed setting. One that is changing already goes on giving
what it gives, and from 0 resumes on the second rising edge of the newest output. -/
def beginSwitch (s : State) (r k : Nat) : TreeSwitch :=
  match switchOf s r k with
  | some p => { p with held := p.held.map fun _ => 0, since := s.now }
  | none => { region := r, tree := k, old := treeSetting s r k, held := none, since := s.now }

/-- The refusal code of FAB_RCLK_COMMIT for region r (R485). -/
def rclkRefusal (s : State) (r : Nat) : Nat :=
  let new := reg s (Reg.fabRclk + 4 * r)
  let free (q : Nat) : Bool := if q = r then bit new 31 else regionFree s q
  if regionRuns s r ∧ bit new 31 ≠ regionFree s r then 2
  else if (List.range 8).any (fun q => free q && otherRegion q (regionLive s)) then 1
  else 0

/-- FAB_RCLK_COMMIT (R485). -/
def execFabRclkCommit (wr : Writer) (val : Word) (s : State) : Result :=
  let r := bits val 2 0
  .next (onWrite s wr Reg.fabRclkCommit fun s =>
    let code := rclkRefusal s r
    let s := setField s Reg.fabRclkCstat 3 0 code
    if code ≠ 0 then s
    else
      let new := reg s (Reg.fabRclk + 4 * r)
      let sw := if regionRuns s r then changedTrees (rclkOf s r) new else []
      updFab s fun f => { f with
        rclk := storePut 0 f.rclk r new,
        switching := f.switching.filter (fun p => !(decide (p.region = r) && decide (p.tree ∈ sw))) ++
          sw.map (beginSwitch s r) })

/-- A tree's old output has given no edge for 1 µs. -/
def TreeSwitch.due (p : TreeSwitch) (r k now : Nat) : Bool :=
  decide (p.region = r) && decide (p.tree = k) && decide (p.held = none) && decide (p.since + 1000 ≤ now)

/-- TREE_SWITCH_FORCED (R484): 1 µs has brought no edge of the old output. The tree gives 0 from here, as after a falling
edge. -/
def execTreeSwitchForced (r : BitVec 3) (tree : BitVec 2) (s : State) : Result :=
  let due (p : TreeSwitch) : Bool := p.due r.toNat tree.toNat s.now
  let forced (p : TreeSwitch) : Option TreeSwitch :=
    if due p = false then some p
    else if treeSetting s p.region p.tree / 8 = 0 then none
    else some { p with held := some 0, since := s.now }
  .next (if s.fab.switching.any due then
    fabEvent (updFab s fun f => { f with switching := f.switching.filterMap forced }) 2
  else s)

/-! ## I/O banks and camera ports (R481, R482) -/

/-- FAB_IOBANK_WRITE (R481). -/
def execFabIobankWrite (wr : Writer) (b : BitVec 2) (val : Word) (s : State) : Result :=
  let n := b.toNat
  .next (onWrite s wr (Reg.fabIobank + 4 * n) fun s => if regionRuns s (2 * n) = false ∧
    regionRuns s (2 * n + 1) = false then
    setReg s (Reg.fabIobank + 4 * n) (fld (bits val 0 0) 0)
  else s)

/-- The physical lanes that a FAB_CAM value gives its logical lanes. -/
def camLanes (w : Word) : List Nat := (List.range (bits w 29 28 + 1)).map fun k => bits w (2 * k + 1) (2 * k)

/-- All elements differ. -/
def distinct : List Nat → Bool
  | [] => true
  | a :: t => !t.contains a && distinct t

/-- A burst of camera port n is lost (R482). -/
def loseBurst (s : State) (n : Nat) : State := fabEvent (countField s (Reg.fabCamstat + 4 * n) 15 0 1) 6

/-- Camera port n. -/
def camAt (s : State) (n : BitVec 2) : CamPort := s.fab.cams[n.toNat]'n.isLt

/-- Store camera port n. -/
def setCam (s : State) (n : BitVec 2) (c : CamPort) : State :=
  updFab s fun f => { f with cams := f.cams.set n.toNat c n.isLt }

/-- FAB_CAM_COMMIT (R482). -/
def execFabCamCommit (wr : Writer) (val : Word) (s : State) : Result :=
  let n : BitVec 2 := BitVec.ofNat 2 (bits val 1 0)
  let w := reg s (Reg.fabCam + 4 * n.toNat)
  .next (onWrite s wr Reg.fabCamCommit fun s =>
  if distinct (camLanes w) = false then setField s Reg.fabCamCstat 3 0 1
  else
    let s := setField s Reg.fabCamCstat 3 0 0
    let s := if (camAt s n).phase = .hs then loseBurst s n.toNat else s
    setCam s n
      { conf := w, phase := if bit w 31 ∧ bits w 27 26 ≠ 3 then .lp else .off, deskewed := false })

/-- CAMERA_BURST: what the lanes of a port bring (R482, Camera ports). -/
def execCameraBurst (port : BitVec 2) (b : CamBurst) (s : State) : Result :=
  let c := camAt s port
  .next (if s.hx1 = false then s
  else match b, c.phase with
    | .start, .lp => setCam s port { c with phase := .hs }
    | .startBadSync, .lp => loseBurst s port.toNat
    | .stop, .hs => setCam s port { c with phase := .lp }
    | .skewCal, .lp => setCam s port { c with deskewed := true }
    | .skewCal, .hs => setCam s port { c with deskewed := true }
    | .ulpsEnter, .lp => setCam s port { c with phase := .ulps }
    | .ulpsExit, .ulps => setCam s port { c with phase := .lp }
    | _, _ => s)

/-! ## Queue controllers (R470–R478, R495) -/

/-- Word width of a committed mode and aspect. -/
def wordWidth (cfg : Word) : Nat :=
  match bits cfg 31 29 with
  | 2 => 32
  | 3 => 32
  | 4 => 64
  | 5 => 64
  | _ => [1, 2, 4, 9, 18, 36, 72, 72].getD (bits cfg 28 26) 0

/-- Depth in words. -/
def blockDepth (cfg : Word) : Nat :=
  match bits cfg 31 29 with
  | 2 => 1024
  | 3 => 1024
  | 4 => 512
  | 5 => 512
  | _ => [32768, 16384, 8192, 4096, 2048, 1024, 512, 512].getD (bits cfg 28 26) 0

/-- OVF of block n, with its event. -/
def blockOverflow (s : State) (n : Nat) : State := fabEvent (setFlag s (Reg.fabQstat + 0x20 * n) 5) 3

/-- UNF of block n, with its event. -/
def blockUnderflow (s : State) (n : Nat) : State := fabEvent (setFlag s (Reg.fabQstat + 0x20 * n) 6) 4

/-- A word cut to the width of the block. -/
def cutWord (cfg : Word) (w : BitVec 72) : BitVec 72 := BitVec.ofNat 72 (w.toNat % 2 ^ wordWidth cfg)

/-- Push a word into a queue of FIFO, UP or DOWN mode (R470). -/
def pushWord (s : State) (n : Nat) (w : BitVec 72) (ok : Bool) : State :=
  let b := blockQ s n
  let cfg := qcfgOf s n
  if blockDepth cfg ≤ b.words.length then blockOverflow s n
  else setBlock s n { b with words := b.words ++ [(cutWord cfg w, ok)] }

/-- Pop a word of block n for user logic or a register write: 0 with UNF when EMPTY; a word whose parity fails
is delivered as stored (R470, R474). -/
def popWord (s : State) (n : Nat) : State × BitVec 72 :=
  let b := blockQ s n
  match b.words with
  | [] => (blockUnderflow s n, 0)
  | (w, ok) :: t =>
    let s := setBlock s n { b with words := t }
    (if ok ∨ blockMode s n = 1 then s else blockParity s n, w)

/-- Push one word of a descriptor into an SQ block (R476). -/
def pushSq (s : State) (n : Nat) (w : BitVec 72 × Bool) : State :=
  let b := blockQ s n
  match b.pair with
  | none => s
  | some q =>
    let p := pairOf s q.toNat
    if b.skip ≠ 0 then setBlock s n { b with skip := b.skip - 1 }
    else if b.partialDesc = [] ∧ 63 ≤ ringUsed p.sqHead p.sqTail 64 then
      blockOverflow (setBlock s n { b with skip := 7 }) n
    else if b.partialDesc.length < 7 then setBlock s n { b with partialDesc := b.partialDesc ++ [w] }
    else
      let s := setBlock s n { b with partialDesc := [], words := b.words ++ b.partialDesc ++ [w] }
      setPair s q.toNat { p with sqTail := (p.sqTail + 1) % 64 }

/-- QUEUE_PUSH (R470, R476, R483): user logic of a RUNNING region pushes a word, while a clock runs on that side of the
block. -/
def execQueuePush (n : BitVec 7) (word : BitVec 72) (parityOk : Bool) (s : State) : Result :=
  let k := n.toNat
  .next (if regionRuns s (k / 16) = false ∨ blockClocked s k false = false then s
  else match blockMode s k with
    | 1 => pushWord s k word parityOk
    | 2 => pushWord s k word parityOk
    | 4 => pushSq s k (cutWord (qcfgOf s k) word, parityOk)
    | _ => s)

/-- The pop of a completion's second word frees its entry (R477). -/
def freeEntry (s : State) (n : Nat) : State :=
  let b := blockQ s n
  if b.halfPop = false then setBlock s n { b with halfPop := true }
  else match b.owners with
    | [] => setBlock s n { b with halfPop := false }
    | q :: t =>
      let s := setBlock s n { b with halfPop := false, owners := t }
      let p := pairOf s q
      if p.ctype = 3 ∧ p.cqSize ≠ 0 then setPair s q { p with cqHead := (p.cqHead + 1) % p.cqSize } else s

/-- Word k of block n stands with bad parity from now on. -/
def spoilHead (s : State) (n : Nat) : State :=
  let b := blockQ s n
  match b.words with
  | [] => s
  | (w, _) :: t => setBlock s n { b with words := (w, false) :: t }

/-- The word that a pop delivered to user logic. -/
def delivered (n : Nat) (r : State × BitVec 72) : State := emit (answerWith r.1 [r.2.toNat]) (.popped n r.2)

/-- QUEUE_POP (R470, R474, R477, R483): user logic pops a word, while a clock runs on that side of the block;
`pushed` is a word that meets it in the same cycle, which finds the queue as the pop leaves it. -/
def execQueuePop (n : BitVec 7) (pushed : Option (BitVec 72)) (parityOk : Bool) (s : State) : Result :=
  let k := n.toNat
  .next (if regionRuns s (k / 16) = false ∨ blockClocked s k true = false then s
  else
    let pushed := if blockClocked s k false then pushed else none
    let s := if parityOk then s else spoilHead s k
    let both : State :=
      let r := popWord s k
      delivered k (match pushed with | some w => pushWord r.1 k w true | none => r.1, r.2)
    match blockMode s k with
    | 1 => both
    | 3 => both
    | 5 =>
      if (blockQ s k).words = [] then delivered k (popWord s k)
      else
        let r := popWord s k
        delivered k (freeEntry r.1 k, r.2)
    | _ => s)

/-- FAB_QPOP (R473). -/
def execFabQpop (wr : Writer) (n : BitVec 7) (_val : Word) (s : State) : Result :=
  let k := n.toNat
  .next (onWrite s wr (Reg.fabQpop + 0x20 * k) fun s => if blockMode s k = 2 then (popWord s k).1 else s)

/-- FAB_QPUSH (R473). -/
def execFabQpush (wr : Writer) (n : BitVec 7) (val : Word) (s : State) : Result :=
  let k := n.toNat
  .next (onWrite s wr (Reg.fabQpush + 0x20 * k) fun s => if blockMode s k = 3 then
    pushWord s k (val.zeroExtend 72) true else s)

/-- The refusal code of FAB_QCOMMIT for block n (R495). -/
def qcommitRefusal (s : State) (n : Nat) : Nat :=
  let w := reg s (Reg.fabQcfg + 0x20 * n)
  let c := bits w 22 16
  if regionRuns s (n / 16) then 1
  else if bits w 31 29 = 4 ∧ bit w 15 then 3
  else if bits w 31 29 = 4 ∧ (c = n ∨ c / 16 ≠ n / 16 ∨ blockMode s c ≠ 5) then 2
  else 0

/-- FAB_QCOMMIT (R495). -/
def execFabQcommit (wr : Writer) (val : Word) (s : State) : Result :=
  let n := bits val 6 0
  .next (onWrite s wr Reg.fabQcommit fun s =>
    let code := qcommitRefusal s n
    let s := setField s Reg.fabQcstat 3 0 code
    if code ≠ 0 then s
    else updFab s fun f => { f with
      qcfg := storePut 0 f.qcfg n (reg s (Reg.fabQcfg + 0x20 * n)),
      qthr := storePut 0 f.qthr n (reg s (Reg.fabQthr + 0x20 * n)) })

/-! ## The hard interfaces and the power domain -/

/-- UIRQ: user logic asserts a line (FAB_EVT). -/
def execUirq (k : BitVec 3) (s : State) : Result := .next (if anyRuns s then fabEvent s (8 + k.toNat) else s)

/-- What BANK3 or FNOC returns to user logic. -/
def fabricAnswer (s : State) (r : Resp) (bs : List Byte) : State :=
  answerWith (updFab s fun f => { f with answer := some (r, bs) }) (r.code :: bs.map (·.toNat))

/-- BANK3_REQUEST: user logic uses Bank 3's home port (R387, R469). -/
def execBank3Request (req : BusReq) (s : State) : Result :=
  .next (if anyRuns s = false then s
  else match req with
    | .read a n =>
      if n = 0 ∨ 64 < n ∨ bankSize < a.toNat + n then s
      else
        let (s, bad, bs) := homeRead s 3 a.toNat n
        fabricAnswer s (if bad then .dataerr else .ok) bs
    | .write a bs =>
      if bs = [] ∨ 64 < bs.length ∨ bankSize < a.toNat + bs.length then s
      else
        let (s, ok) := homeWrite s 3 a.toNat bs
        fabricAnswer s (if ok then .ok else .dataerr) [])

/-- FABRIC_DOMAIN_SLEEP (R493). -/
def execFabricDomainSleep (s : State) : Result :=
  .next (if s.hx1 ∧ anyRuns s = false ∧ s.fab.engine = none ∧ (List.range 8).all (fun r => !(regionOf s r).going) then
    updFab s fun f => { f with asleep := true } else s)

/-- The Ferry port behind an NI. -/
def niPort (ni : Nat) : Option (BitVec 2) := ([0, 1, 2, 3] : List (BitVec 2)).find? fun n => decide (portNi n = ni)

/-- DOMAIN_WAKE (R417, R463): a packet wakes a sleeping domain; a disabled one answers DEAD and stays off. Which NI
sent the packet is a free value. A wake of more than 5 µs sets NOC_EVT.WAKE. -/
def execDomainWake (ni : BitVec 4) (slow : Bool) (s : State) : Result :=
  let late (s : State) : State := if slow then setFlag s Reg.nocEvt 2 else s
  .next (if s.hx1 = false then s
  else if ni.toNat = 6 then (if s.fab.asleep then late (updFab s fun f => { f with asleep := false }) else s)
  else match niPort ni.toNat with
    | none => s
    | some n =>
      if (portAt s n).phase = .sleep then late (portPhase s n .idle)
      else if (portAt s n).phase = .disabled then nocFailure (usedFree s) (freeNat s % 16) ni.toNat .dead
      else s)

end Sys2Proof.Machine
end

