-- ==== Sys2Proof/Machine/Tick.lean ====
section
/-!
DEFINITION. Ticks: where they come from, and what a tick does, step by step (08, The tick; 01; 13, Epochs).
-/
namespace Sys2Proof.Machine

/-- The unit takes ticks: the HX1 runs, the mode takes them, and no failed arbitration holds it (R244). -/
def takesTicks (s : State) : Bool := s.hx1 && runs s && !s.wdn.held

/-- TTB_SRC.SRC of the committed settings. -/
def tickSrc (s : State) : Nat := bits s.ttb.src 1 0

/-! ## The steps of a tick -/

/-- The closing sailing is missed: an entry is unfinished, or a cut pass has yet to be replayed (R260, R261). -/
def missedNow (s : State) : Bool :=
  s.ttb.ticked && passRuns s && !s.ttb.marked && (s.ttb.cut || !allFinished s)

/-- Contents staged for the active slot take effect, and the pending switch when it is due (R250, R253). The
first tick activates the slot that the image names. -/
def applySwitch (s : State) : State :=
  let s := updTtb s fun t =>
    { t with active := if t.ticked then t.active else s.wdn.slot0,
             slots := match t.staged with
               | some x => storePut none t.slots t.active.toNat (some x)
               | none => t.slots,
             staged := none }
  match s.ttb.pend with
  | some w => if switchDue s then updTtb s fun t => { t with active := w.slot, pend := none } else s
  | none => s

/-- The descriptor behind a switch that has taken effect completes, with the slot in RESULT[3:0] (R285). -/
def finishBind (s : State) (w : Option Switch) : State :=
  match w with
  | some ⟨slot, _, _, some (qp, pos), _⟩ => complete s qp.toNat pos 0 0 (slot.zeroExtend 32)
  | _ => s

/-- The overrun action under ABANDON and SHELTER (R260): the missed sailing ends, with its record. -/
def abandonMissed (s : State) (own : Sail) : State :=
  let s :=
    if s.ttb.cur.policy = 2 then
      let s := passFlag s 5
      report s 0x0C 0 (s.ttb.passFlags.zeroExtend 32)
    else s
  let s := writeRecord s own s.ttb.passFlags s.ttb.pass ((s.now - s.ttb.tickAt) / 1000)
  abandonPass s

/-- The states of the entries at the opening of a sailing (R265). -/
def openStates (t : Timetable) : List EStat :=
  t.entries.map fun _ => { state := .pending, late := false, ustat := 0, posted := false, doneAt := 0 }

/-- A sailing opens: its pass starts at the tick, and the checkpoint is ordered, or waits (R257, R258). -/
def openSailing (s : State) (flags : BitVec 9) : State :=
  let t := activeTable s
  let s := updTtb s fun x =>
    { x with passSail := x.sail, flags := flags, passFlags := flags, cur := t, est := openStates t, pass := 0,
             base := s.now, openAt := s.now, tickAt := s.now, marked := false, ckDone := false, cut := false,
             phase := .checkpoint, outq := retireCompletions x.outq, ckWait := true }
  orderWaiting s

/-- The new sailing is skipped under EXTEND: abandoned before any entry is released (R260). -/
def skipSailing (s : State) (flags : BitVec 9) : State :=
  let t := activeTable s
  let flags := flags ||| 2
  let gone := abandonedCompletions (some (s.ttb.sail, 0, flags)) t.entries (openStates t) 0
  let s := updTtb s fun x => { x with flags := flags, phase := .extending, outq := x.outq ++ gone }
  let s := countField s Reg.ttbCnt 23 16 1
  emit (writeRecord s s.ttb.sail flags 0 0) (.inputsReleased s.ttb.sail)

/-- The MISSED flag and count, once per sailing (R260). -/
def countMissed (s : State) : State :=
  if s.ttb.passFlags.getLsbD 0 then s else countField (passFlag s 0) Reg.ttbCnt 15 0 1

/-! ## Epochs at a tick (R442–R447) -/

/-- The module is out of the epoch of the sailing that opens. -/
def epochOut (s : State) : State :=
  let s := flagPartial (leaveEpoch s)
  if s.fry.rejoin.isNone then sendToRoot s (.rejoinAsk s.fry.node) else s

/-- The module is a member and reports to the root along the tick tree. -/
def epochReport (s : State) : State :=
  let s := updFry s fun f => { f with out := false, awaiting := some s.now }
  match s.fry.upPort with
  | some p => sendOn s p (.tickReport s.fry.node (instSail s))
  | none => s

/-- The answer to a rejoin request as a tick leaves it: used up at the target, and void once a tick message names a
sailing at or past the target, since that tick can come no more (R447). -/
def rejoinLeft (s : State) (msg : Option TickMsg) : Option (Sail × BitVec 16) :=
  match s.fry.rejoin, msg with
  | some (target, m), some x => if (x.sail - target).toNat < 2 ^ 47 then none else some (target, m)
  | r, _ => r

/-- The rejoin takes place at this tick: the message names the target (R447). -/
def rejoinsNow (s : State) (msg : Option TickMsg) : Option (Sail × BitVec 16) :=
  match s.fry.rejoin, msg with
  | some (target, m), some x => if x.sail = target then some (target, m) else none
  | _, _ => none

/-- The Ferry block's counts of a sailing start again, and posts that came early become fresh (R448–R450); what came
in for a reduction that is still outstanding stays (R455). -/
def freshSailing (s : State) : State :=
  updFry s fun f =>
    { f with fresh := f.fresh ++ f.early.filter (fun k => decide (k ∉ f.fresh)), early := [], waits := [], posts := [],
             reds := 0, tickSent := false, reports := [],
             contrib := f.contrib.filter fun c =>
               decide (c.sail = s.ttb.sail + f.sailofs) ||
               s.helm.red.any fun r => decide (r.inst = some c.k) && decide (r.sail = c.sail) }

/-- Membership of the epoch is judged at a tick (R442–R447). -/
def ferryTick (s : State) (mepoch : BitVec 16) (bumped : Bool) (msg : Option TickMsg) : State :=
  let re := rejoinsNow s msg
  let s := updFry s fun f =>
    { f with
      mepoch := match re with | some (_, m) => m | none => mepoch,
      sailofs := match re with | some (target, _) => target - s.ttb.sail | none => f.sailofs,
      rejoin := rejoinLeft s msg,
      armed := if bumped then false else f.armed }
  let s := freshSailing s
  if isRoot s then
    updFry s fun f =>
      { f with out := false, awaiting := none, collect := some (instSail s, s.now) }
  else
    match claimsRoot s, msg with
    | false, some m =>
      if re.isSome ∨ (instSail s = m.sail ∧ s.fry.mepoch = m.mepoch) then epochReport s else epochOut s
    | _, _ =>
      if s.fry.known = [] ∧ claimsRoot s = false then updFry s fun f => { f with out := false, awaiting := none }
      else epochOut s

/-! ## The whole tick -/

/-- The tick settings that were committed come into force: every later tick comes from them, none of an edge or a tick
message that the old source accepted (R242). -/
def applySource (s : State) : State :=
  let v := s.ttb.srcNext.getD s.ttb.src
  let s := updTtb s fun t =>
    { t with src := v, srcNext := none, tickDue := if bits v 1 0 = 0 then t.tickDue else [] }
  updFry s fun f => { f with due := if bits v 1 0 = 2 then f.due else none }

/-- What follows once the module is in the mode that the tick brings: the thermal cap and the array clock under it, the
Warden's watchdog, the overrun action, FRAME_SYNC_OUT, the new sailing, signals, and the Ferry epoch. -/
def tickOpens (s : State) (c own : Sail) (missed : Bool) (bind : Option Switch) (src : BitVec 2) (lost : Bool)
    (mepoch : BitVec 16) (bumped : Bool) (msg : Option TickMsg) (junction : BitVec 16) : State :=
  let s := aclkTick (thermalTick s junction) c
  let s := watchdogTick s (activeTable s).period
  let runsOn : Bool := missed && decide (s.ttb.cur.policy = 1)
  let s := if missed ∧ runsOn = false then abandonMissed s own else s
  let opened := s.ttb.ticked
  let outw := bits s.ttb.src 9 4
  let s := updTtb s fun t =>
    { t with srcUsed := src, ticked := true, lastTick := s.now,
             syncOut := decide (outw ≠ 0), syncEnd := if outw = 0 then none else some (s.now + 30 + outw * 1000) }
  let s := applySource s
  let flags : BitVec 9 := if lost then 256 else 0
  let s := if runsOn then skipSailing s flags else openSailing s flags
  let s := finishBind s bind
  let s := if opened then countField (signalAll s) Reg.fltBist 23 16 1 else signalAll s
  let s := fabricSail s s.ttb.sail
  let s := ferryTick s mepoch bumped msg
  judgeDegraded s

/-- A tick is taken at this instant: from which source, with what of a loss, and with which tick message. -/
def takeTick (s : State) (src : BitVec 2) (lost : Bool) (msg : Option TickMsg) (junction : BitVec 16) : State :=
  let c := s.ttb.sail
  let own := s.ttb.passSail
  let missed := missedNow s
  let mepoch := nextMepoch s
  let bumped : Bool := s.fry.armed && decide (bumpTarget s = instSail s + 1)
  let bind := if switchDue s then s.ttb.pend else none
  let s := if s.wdn.benchFirst then order (updWdn s fun w => { w with benchFirst := false }) .bench else s
  let s := ordersTick s
  if runs s = false then s
  else
    let s := if missed then countMissed s else s
    let s := updTtb (applySwitch s) fun t => { t with sail := c + 1 }
    tickOpens s c own missed bind src lost mepoch bumped msg junction

/-! ## Where ticks come from (R238–R244) -/

/-- FRAME_SYNC_IN_EDGE (R239, R584): an edge held long enough, of the selected polarity, under PIN. -/
def execFrameSyncInEdge (falling : Bool) (heldPs : Nat) (s : State) : Result :=
  .next (if takesTicks s = false ∨ tickSrc s ≠ 0 ∨ bit s.ttb.src 2 ≠ falling ∨ heldPs ≤ 10000 then s
  else
    let open_ : Bool := decide (heldPs < 11400)
    let taken : Bool := !open_ || decide (freeNat s % 2 = 1)
    let s := if open_ then usedFree s else s
    if taken = false then s
    else
      let p := activePeriod s
      let prev := s.ttb.tickDue.getLast?.getD s.ttb.lastTick
      if s.ttb.ticked ∧ p ≠ 0 ∧ (s.now - prev) * 100 < p * 1000 * bits s.ttb.src 16 10 then
        countField s Reg.ttbCnt 31 24 1
      else updTtb s fun t => { t with tickDue := t.tickDue ++ [s.now + 40] })

/-- A tick from the selected source returns the unit to it (R241). -/
def sourceBack (s : State) : State := updTtb s fun t => { t with srcLost := false }

/-- TICK (R10, R238): the tick that an accepted edge ordered. -/
def execTick (junction : BitVec 16) (s : State) : Result :=
  .next <| match s.ttb.tickDue with
    | [] => s
    | t :: rest =>
      if takesTicks s ∧ tickSrc s = 0 ∧ t ≤ s.now then
        takeTick (sourceBack (updTtb s fun x => { x with tickDue := rest })) 0 false none junction
      else s

/-- The timer gives ticks: it is the source, or stands in for a lost one (R238, R241). -/
def timerTicks (s : State) : Bool := decide (tickSrc s = 1) || (s.ttb.srcLost && bit s.ttb.src 3)

/-- TIMER_TICK (R238, R240); the first tick under TIMER comes with RUNREQ (R244). -/
def execTimerTick (junction : BitVec 16) (s : State) : Result :=
  let p := activePeriod s
  .next (if takesTicks s ∧ timerTicks s ∧
            p ≠ 0 ∧ s.ttb.lastTick + p * 1000 ≤ s.now then
    takeTick (if tickSrc s = 1 then sourceBack s else s) 1 (decide (tickSrc s ≠ 1)) none junction
  else s)

/-- TICK_SOURCE_LOSS (R241). -/
def execTickSourceLoss (junction : BitVec 16) (s : State) : Result :=
  let p := activePeriod s
  .next (if takesTicks s ∧ (tickSrc s = 0 ∨ tickSrc s = 2) ∧ s.ttb.srcLost = false ∧ p ≠ 0 ∧
            s.ttb.lastTick + p * (100 + bits s.ttb.src 23 17) * 10 ≤ s.now then
    let s := updTtb s fun t => { t with srcLost := true }
    if bit s.ttb.src 3 then takeTick s 1 true none junction else s
  else s)

/-- FERRY_TICK (R439): the delay after a tick message has passed. -/
def execFerryTick (junction : BitVec 16) (s : State) : Result :=
  .next <| match s.fry.due with
    | none => s
    | some (at_, msg) =>
      if takesTicks s ∧ tickSrc s = 2 ∧ at_ ≤ s.now then
        takeTick (sourceBack (updFry s fun f => { f with due := none })) 2 false (some msg) junction
      else s

/-- A port is configured as upstream (R436). -/
def upstreamSet (s : State) : Bool :=
  !claimsRoot s && (!bit s.fry.tree 30 || bit (pctl s (BitVec.ofNat 2 (bits s.fry.tree 29 28))) 31)

/-- TTB_SRC_COMMIT (R242). -/
def execTtbSrcCommit (wr : Writer) (s : State) : Result :=
  let v := reg s Reg.ttbSrc
  .next (onWrite s wr Reg.ttbSrcCommit fun s => if bits v 1 0 = 2 ∧ upstreamSet s = false then setReg s Reg.ttbSrcCstat 1
  else
    let s := setReg s Reg.ttbSrcCstat 0
    updTtb s fun t => { t with srcNext := some v })

end Sys2Proof.Machine
end

