-- ==== Sys2Proof/Machine/Boot.lean ====
section
/-!
DEFINITION. Boot: the image in boot flash and its checks, user calibration, what follows when the HX1 leaves
reset, a failed image, and the end of the image's sections (16, Start-up, Boot flash and images, Calibration).
-/
namespace Sys2Proof.Machine

/-! ## Boot flash (16, Boot flash and images) -/

/-- A byte of boot flash; an erased byte is 0xFF. -/
def flashByte (s : State) (a : Nat) : Byte := storeGet 0xFF s.wdn.flash a

/-- n bytes of boot flash. -/
def flashBytes (s : State) (a n : Nat) : List Byte := (rangeFrom a n).map (flashByte s)

/-- n bytes of boot flash, little-endian. -/
def flashNum (s : State) (a n : Nat) : Nat := numOf (flashBytes s a n)

/-- Bytes written over boot flash. -/
def flashPut (l : List (Nat × Byte)) (a : Nat) : List Byte → List (Nat × Byte)
  | [] => l
  | b :: t => flashPut (storePut 0xFF l a b) (a + 1) t

/-- Write bytes of boot flash. -/
def pokeFlash (s : State) (a : Nat) (bs : List Byte) : State :=
  updWdn s fun w => { w with flash := flashPut w.flash a bs }

/-- Flash offset of image A or B. -/
def imageBase (i : BitVec 1) : Nat := if i = 0 then 0x1000000 else 0x4000000

/-- Size of an image slot, 48 MiB. -/
def imageSize : Nat := 0x3000000

/-! ## The image header (R540) -/

/-- A section record. -/
structure Section where
  type   : Nat
  index  : Nat
  off    : Nat
  len    : Nat
  dest   : Nat
  hash   : List Byte
  deriving DecidableEq, Repr

/-- Section record k of an image. -/
def sectionAt (s : State) (i : BitVec 1) (k : Nat) : Section :=
  let a := imageBase i + 0x40 + 64 * k
  { type := flashNum s a 1, index := flashNum s (a + 1) 1, off := flashNum s (a + 4) 4, len := flashNum s (a + 8) 4,
    dest := flashNum s (a + 16) 8, hash := flashBytes s (a + 32) 32 }

/-- NSEC. -/
def sectionCount (s : State) (i : BitVec 1) : Nat := flashNum s (imageBase i + 6) 2

/-- The sections of an image. -/
def sectionsOf (s : State) (i : BitVec 1) : List Section := (List.range (sectionCount s i)).map (sectionAt s i)

/-- The destination is valid (R540): it exists, and the section fits. -/
def Section.fits (x : Section) : Bool :=
  match x.type with
  | 1 => decide (x.dest + x.len ≤ bankSize)
  | 2 => decide (x.len ≤ 32768 * 24)
  | 3 => decide (x.len ≤ 4096)
  | 4 => decide (x.index < 16) && decide (x.len ≤ 0x5000)
  | 5 => decide (x.index < 8) && decide (x.dest + x.len ≤ dramSize)
  | 6 => decide (x.dest + x.len ≤ dramSize)
  | 7 => decide (x.index < 4) && decide (x.dest + x.len ≤ bankSize)
  | _ => false

/-- The section lies within the image slot. -/
def Section.inside (x : Section) : Bool := decide (0x2000 ≤ x.off) && decide (x.off + x.len ≤ imageSize)

/-- A number of big-endian bytes. -/
def beNum (l : List Byte) : Nat := numOf l.reverse

/-- The code with which the boot ROM refuses a header, 0 where it accepts it (R540, WDN_BOOT.CODE). -/
def headerCode (s : State) (i : BitVec 1) : Nat :=
  let a := imageBase i
  if flashNum s a 4 ≠ 0x4D495848 ∨ flashNum s (a + 4) 2 ≠ 1 ∨ sectionCount s i = 0 ∨ 60 < sectionCount s i then 1
  else
    let key := flashBytes s (a + 0xFC0) 64
    if beNum (sha256 key) ≠ Config.keyHash then 2
    else if ecdsaVerify (beNum key) (beNum (sha256 (flashBytes s a 0xFC0)))
        (beNum (flashBytes s (a + 0x1000) 64)) = false then 3
    else if (sectionsOf s i).all (fun x => x.inside && x.fits) = false then 4
    else 0

/-! ## User calibration (R542) -/

/-- Greatest INDEX and the clamp of an ITEM. -/
def calItem (item : Nat) : Option (Nat × Int) :=
  match item with
  | 1 => some (16, 32)
  | 2 => some (11, 328)
  | 3 => some (3, 20)
  | 4 => some (43, 2)
  | 5 => some (71, 8)
  | _ => none

/-- Set the delta of an ITEM and INDEX; a later entry stands. -/
def putCal (k : Nat) (v : Int) : List (Nat × Int) → List (Nat × Int)
  | [] => [(k, v)]
  | (j, x) :: t => if k < j then (k, v) :: (j, x) :: t else if k = j then (k, v) :: t else (j, x) :: putCal k v t

/-- One entry of user calibration adds its clamped delta to the factory value: CLAMPED is bit 2, UNKNOWN bit 3 of
WDN_CAL. -/
def calEntry (r : List (Nat × Int) × Byte) (bs : List Byte) : List (Nat × Int) × Byte :=
  let item := numOf (bs.take 2)
  let index := numOf ((bs.drop 2).take 2)
  let delta := (BitVec.ofNat 32 (numOf ((bs.drop 4).take 4))).toInt
  match calItem item with
  | none => (r.1, r.2 ||| 8)
  | some (top, clamp) =>
    if top < index then (r.1, r.2 ||| 8)
    else
      let v := max (-clamp) (min clamp delta)
      (putCal (item * 65536 + index) (Config.factory item index + v) r.1, if v = delta then r.2 else r.2 ||| 4)

/-- The value in force of an ITEM and INDEX: what user calibration has made of it, or the factory value (R542). -/
def calValue (s : State) (item index : Nat) : Int :=
  match s.wdn.calib.find? (fun p => p.1 = item * 65536 + index) with
  | some p => p.2
  | none => Config.factory item index

/-- Field k of the calibration header, n bytes long; its place is not given (log 19). -/
def calField (bs : List Byte) (k n : Nat) : Nat := numOf (((bs.take 16).drop (Config.calPlace k)).take n)

/-- NENT and the CRC-32C of a calibration block whose MAGIC is "HXUC" (R542). -/
def calHeader (bs : List Byte) : Option (Nat × Word) :=
  if calField bs 0 4 = 0x43555848 then some (calField bs 1 (Config.calPlace 3), BitVec.ofNat 32 (calField bs 2 4))
  else none

/-- User calibration is applied, or ignored as a whole (APPLIED is bit 0, BAD bit 1). -/
def applyCalibration (s : State) : State :=
  let bs := flashBytes s 0x20000 1024
  let bad (s : State) : State := updWdn s fun w => { w with calib := [], cal := 2 }
  match calHeader bs with
  | none => bad s
  | some (n, crc) =>
    if crc32c (bs.drop 16) ≠ crc then bad s
    else
      let es := (List.range (min n 126)).map fun i => (bs.drop (16 + 8 * i)).take 8
      let r := es.foldl calEntry ([], 1)
      updWdn s fun w => { w with calib := r.1, cal := r.2 }

/-! ## The HX1 leaves reset (16, steps 2 to 4) -/

/-- The newer copy of the repair record (R512). -/
def newerRecord (a b : Option (Nat × List Word)) : Option (List Word) :=
  match a, b with
  | some (m, x), some (n, y) => some (if m < n then y else x)
  | some (_, x), none => some x
  | none, some (_, y) => some y
  | none, none => none

/-- The tile maps as the repair record gives them, and the rows lost (R59, R512). -/
def applyRecord (s : State) : State :=
  match newerRecord s.wdn.recordA s.wdn.recordB with
  | none => setFlag s Reg.fltStat 4
  | some l =>
    let s := (List.range 16).foldl (fun s n => setReg s (Reg.hlmTmap + 4 * n) (l.getD n 0x3E1F)) s
    let lost := (List.range 16).filter (rowLost s)
    let s := lost.foldl (fun s n => setFlag s Reg.fltLost n) s
    if lost = [] then s else holdLostRows (updWdn s fun w => { w with degradedFor := true })

/-- The boot fails for good (R541, steps 2 and 5): STANDBY with BOOTFAIL and the code. -/
def bootFails (s : State) (code : Nat) : State :=
  let s := alert (updWdn s fun w => { w with bootCode := BitVec.ofNat 8 code }) 2
  enterStandby s 8

/-- The ACTIVE image, as the control block says; A where no copy is valid. -/
def activeImage (s : State) : BitVec 1 :=
  match s.wdn.control with
  | some (a, _) => a
  | none => 0

/-- The boot ROM's new control block: the other image ACTIVE, TRIAL clear. Its place and layout in flash are not
given: the first bytes of the block become free. -/
def rewriteControl (s : State) (active : BitVec 1) : State :=
  let s := pokeFlash s 0 ((rangeFrom 0 64).map fun i => byteOf (freeNat s) i)
  updWdn (usedFree s) fun w => { w with control := some (active, false) }

/-- The image that was tried has failed (R541): the other is tried after a module reset, or the boot fails. -/
def imageFails (s : State) (code : Nat) : State :=
  match s.wdn.others with
  | [] => bootFails s code
  | next =>
    let trial : Bool := match s.wdn.control with
      | some (a, t) => t && decide (a = s.wdn.image)
      | none => false
    let s := if trial then rewriteControl s (activeImage s ^^^ 1) else s
    let w := s.wdn
    updWdn (moduleReset s) fun v =>
      { v with others := next, tries := w.tries, image := w.image, bootCode := BitVec.ofNat 8 code }

/-- The images of this LOAD still to be tried, in order (R541). -/
def imageOrder (s : State) : List (BitVec 1) :=
  if s.wdn.others ≠ [] then s.wdn.others
  else
    let a := activeImage s
    if s.wdn.straps.bootSel then [a ^^^ 1, a] else [a, a ^^^ 1]

/-- The boot ROM reads the next image's header (step 4). -/
def tryImage (s : State) : State :=
  let fresh : Bool := decide (s.wdn.others = [])
  match imageOrder s with
  | [] => s
  | i :: rest =>
    let s := updWdn s fun w => { w with image := i, others := rest, tries := if fresh then 1 else w.tries + 1 }
    let code := headerCode s i
    if code ≠ 0 then imageFails s code
    else updWdn s fun w => { w with booting := true, verified := false }

/-- The Warden's registers at their reset values before step 2 (R549). WDN_STAT keeps what the entry to STANDBY and the
wake have set, and while images of this LOAD are still to be tried WDN_BOOT keeps which and how many were. -/
def wardenReset (w : WdnState) : WdnState :=
  { w with vin := 0, vinMin := 0, tempJ := 0, tempW := 0, power := 0, bootCode := 0, cal := 0, calib := [],
           image := if w.others = [] then 0 else w.image, tries := if w.others = [] then 0 else w.tries }

/-- The HX1 leaves reset (R531, steps 2 to 4): registers and units as at the entry to LOAD (R549), straps sampled
(R578), the tile maps (R59), OTP and calibration (R542), and the image header (R540). -/
def leaveReset (s : State) (straps : Straps) : State :=
  let s := updWdn s fun w => { wardenReset w with straps := straps, rails := false, resetting := false,
                                                  selfTested := false, pilotBad := [], degradedFor := false }
  let s := applyRecord { freshHx1 s with hx1 := true }
  if Config.otpGood = false then bootFails s 7
  else tryImage (applyCalibration s)

/-- HX1_RESET_RELEASE (R531): every rail has been within its limits for 0.5 ms. -/
def execHx1ResetRelease (straps : Straps) (s : State) : Result :=
  .next (if s.mode = .load ∧ s.wdn.rails ∧ s.wdn.dueAt ≤ s.now then leaveReset s straps else s)

/-- MODULE_RESET_END (R532): the module reset of 1 ms ends. -/
def execModuleResetEnd (straps : Straps) (s : State) : Result :=
  .next (if s.mode = .load ∧ s.wdn.resetting ∧ s.wdn.dueAt ≤ s.now then leaveReset s straps else s)

/-! ## Pilots, DRAM and the image's sections (16, steps 5 to 10) -/

/-- PILOT_SELF_TEST_END (step 5, R532). The banks were cleared before it. -/
def execPilotSelfTestEnd (aPass bPass : Bool) (s : State) : Result :=
  .next (if s.mode ≠ .load ∨ s.hx1 = false ∨ s.wdn.selfTested then s
  else
    let s := setReg s Reg.bnkStat 0xF
    if aPass = false ∧ bPass = false then bootFails s 8
    else
      let s := updWdn s fun w =>
        { w with selfTested := true, pilotBad := [!aPass, !bPass],
                 degradedFor := w.degradedFor || !(aPass && bPass) }
      if aPass ∧ bPass then s
      else { s with plt := { s.plt with solo := true, survivor := !aPass } })

/-- DRAM_TRAINING_DONE (R401). -/
def execDramTrainingDone (s : State) : Result :=
  .next (if s.mode = .load ∧ s.hx1 ∧ getFlag s Reg.drcStat 0 = false then setFlag (setReg s Reg.bnkStat 0xF) Reg.drcStat 0
  else s)

/-- DRAM_INIT_DONE (R401): module DRAM holds 0 with valid check bits and is open to initiators. -/
def execDramInitDone (s : State) : Result :=
  .next (if s.mode = .load ∧ s.hx1 ∧ getFlag s Reg.drcStat 0 ∧ getFlag s Reg.drcStat 1 = false then
    setFlag s Reg.drcStat 1
  else s)

/-- A section's bytes. -/
def sectionBytes (s : State) (i : BitVec 1) (x : Section) : List Byte := flashBytes s (imageBase i + x.off) x.len

/-- Section x goes to DRAM. -/
def Section.toDram (x : Section) : Bool := decide (x.type = 5) || decide (x.type = 6)

/-- Microwords of a section, 24 bytes each, from address n. -/
def fillStore (l : List (Nat × BitVec 192)) : List Byte → Nat → Nat → List (Nat × BitVec 192)
  | _, _, 0 => l
  | bs, n, k + 1 => fillStore (storePut 0 l n (BitVec.ofNat 192 (numOf (bs.take 24)))) (bs.drop 24) (n + 1) k

/-- Descriptor entries of a section; one that R98 refuses is not installed and sets BADDESC. -/
def fillDesc (s : State) : List Byte → Nat → Nat → State
  | _, _, 0 => s
  | bs, n, k + 1 => fillDesc (writeDesc s n (BitVec.ofNat 32 (numOf (bs.take 4)))) (bs.drop 4) (n + 1) k

/-- An image's section goes to its destination. A timetable makes its slot VALID, unchecked: the checks of R249 are those
of a commit (R250, R541; DEDUCED, log 134). -/
def placeSection (s : State) (x : Section) (bs : List Byte) : State :=
  match x.type with
  | 1 => pokeBytes s (bankAddr 0 x.dest) bs
  | 2 => updHelm s fun h => { h with store := fillStore h.store bs 0 ((bs.length + 23) / 24) }
  | 3 => fillDesc s bs 0 ((bs.length + 3) / 4)
  | 4 => updTtb s fun t => { t with slots := storePut none t.slots x.index (some (parseTimetable bs)) }
  | 7 => pokeBytes s (bankAddr x.index x.dest) bs
  | _ => pokeBytes s x.dest bs

/-- Stream sections: every hash must hold (R541). -/
def streamSections (s : State) (i : BitVec 1) : List Section → State × Bool
  | [] => (s, true)
  | x :: t =>
    let bs := sectionBytes s i x
    if sha256 bs ≠ x.hash then (s, false) else streamSections (placeSection s x bs) i t

/-- Every section has passed: the array is cleared (R61), the Pilots start at level 2 at VBASE 0, and BOOTLIM
runs (step 10, R539). -/
def imageStarts (s : State) (i : BitVec 1) : State :=
  let a := imageBase i
  let s := updWdn s fun w =>
    { w with verified := true, slot0 := BitVec.ofNat 4 (flashNum s (a + 0x14) 1), bootCode := 0,
             iver := BitVec.ofNat 32 (flashNum s (a + 8) 4),
             bootlim := some (s.now + getField s Reg.pwrWakecfg 19 16 * 1000000000) }
  let s := setReg s Reg.hlmUcodeVer (BitVec.ofNat 32 (flashNum s (a + 0xC) 4))
  holdLostRows { s with arr := ArrayState.load, plt := { s.plt with started := true, pc := 0 } }

/-- IMAGE_SECTIONS_VERIFIED (steps 6 to 10, R118, R541). -/
def execImageSectionsVerified (s : State) : Result :=
  let i := s.wdn.image
  .next (if s.mode ≠ .load ∨ s.hx1 = false ∨ s.wdn.booting = false ∨ s.wdn.verified ∨ s.wdn.selfTested = false ∨
            getFlag s Reg.drcStat 1 = false then s
  else
    let xs := sectionsOf s i
    match streamSections s i (xs.filter fun x => !x.toDram) with
    | (s, false) => imageFails s 4
    | (s, true) =>
      let crc := storeCrc s.helm.store
      let s := setReg s Reg.hlmUcodeCrc crc
      if crc.toNat ≠ flashNum s (imageBase i + 0x10) 4 then imageFails s 5
      else match streamSections s i (xs.filter (·.toDram)) with
        | (s, false) => imageFails s 4
        | (s, true) => imageStarts s i)

/-- BOOTLIM_EXPIRY (R539). -/
def execBootlimExpiry (s : State) : Result :=
  .next <| match s.wdn.bootlim with
    | none => s
    | some t =>
      if s.mode = .load ∧ t ≤ s.now then
        let s := updWdn s fun w => { w with limits := w.limits + 1, bootlim := none }
        if 2 ≤ s.wdn.limits then bootFails s 6 else imageFails s 6
      else s

/-- A condition of DEGRADED stands at the entry to running (R532). -/
def startsDegraded (s : State) : Bool :=
  s.wdn.degradedFor || decide (reg s Reg.fltLost ≠ 0) || s.wdn.pilotBad.any id

/-- RUNREQ (R532, R537, R244): the junction reading is that of the tick which, under TIMER, comes at the entry. -/
def execRunreq (wr : Writer) (junction : BitVec 16) (s : State) : Result :=
  .next (onWrite s wr Reg.pwrCmd fun s => if wr = .host then setReg s Reg.pwrCmdCstat 2
  else if s.mode ≠ .load ∨ getFlag s Reg.drcStat 1 = false ∨ s.wdn.verified = false ∨
      (slotOf s s.wdn.slot0.toNat).isNone then setReg s Reg.pwrCmdCstat 1
  else
    let s := setMode (setReg s Reg.pwrCmdCstat 0) (if startsDegraded s then .degraded else .run)
    let s := updWdn s fun w => { w with bootlim := none, orders := [], booting := false }
    let s := updTtb (armWatchdog s) fun t => { t with lastTick := s.now }
    if tickSrc s = 1 then takeTick s 1 false none junction else s)

end Sys2Proof.Machine
end

