-- ==== Sys2Proof/Machine/Fpu.lean ====
section
/-!
DEFINITION. The Pilots' floating-point unit: binary32 operands, exact results and their one rounding, with the
flags they set (R190, R191, R193, R206, R346, R374–R377).
-/
namespace Sys2Proof.Machine

/-! ## Flags in FCSR.FLAGS order, and what an operation gives -/

def fNV : BitVec 6 := 0x01
def fDZ : BitVec 6 := 0x02
def fOF : BitVec 6 := 0x04
def fUF : BitVec 6 := 0x08
def fNX : BitVec 6 := 0x10
def fDN : BitVec 6 := 0x20

/-- A result: its word, the flags, and whether it rounds, with an unbounded exponent range, to a non-zero value below
the smallest normal number (R374). -/
structure FResult where
  val   : Word
  flags : BitVec 6
  tiny  : Bool
  deriving DecidableEq, Repr

/-- A result without flags. -/
def FResult.plain (v : Word) : FResult := { val := v, flags := 0, tiny := false }

/-- A result with flags. -/
def FResult.flagged (v : Word) (f : BitVec 6) : FResult := { val := v, flags := f, tiny := false }

/-! ## Operands -/

/-- Exponent field, fraction and sign. -/
def fExpo (w : Word) : Nat := w.toNat / 2 ^ 23 % 256
def fFrac (w : Word) : Nat := w.toNat % 2 ^ 23
def fNeg (w : Word) : Bool := w.getLsbD 31

def fIsNan (w : Word) : Bool := decide (fExpo w = 255) && decide (fFrac w ≠ 0)
/-- Signalling: the leading fraction bit is 0 (R193). -/
def fIsSnan (w : Word) : Bool := fIsNan w && !w.getLsbD 22
def fIsInf (w : Word) : Bool := decide (fExpo w = 255) && decide (fFrac w = 0)
def fIsSub (w : Word) : Bool := decide (fExpo w = 0) && decide (fFrac w ≠ 0)
def fIsZero (w : Word) : Bool := decide (fExpo w = 0) && decide (fFrac w = 0)

/-- A subnormal operand is replaced by zero of its sign (R374). -/
def fFlush (w : Word) : Word := if fIsSub w then w &&& 0x80000000 else w

/-- A finite non-zero operand is (−1)^sign × fSig × 2^fPow. -/
def fSig (w : Word) : Nat := 2 ^ 23 + fFrac w
def fPow (w : Word) : Int := (fExpo w : Int) - 150

/-- Its value as an integer multiple of 2^p, for p at most its power. -/
def fScaled (w : Word) (p : Int) : Int :=
  let m : Int := if fIsZero w then 0 else (fSig w : Int) * 2 ^ (fPow w - p).toNat
  if fNeg w then -m else m

/-! ## Words -/

/-- The sign bit. -/
def fSign (neg : Bool) : Word := if neg then 0x80000000 else 0
def fZero (neg : Bool) : Word := fSign neg
def fInf (neg : Bool) : Word := fSign neg ||| 0x7F800000
/-- M, the largest finite number. -/
def fMax (neg : Bool) : Word := fSign neg ||| 0x7F7FFFFF
/-- The NaN of an invalid operation without a NaN operand (R375). -/
def fBadNan : Word := 0x7FC00000

/-- The NaN that passes through: ga if it is a NaN, otherwise gb, made quiet (R375). -/
def fNanOf (a b : Word) : Word := (if fIsNan a then a else b) ||| 0x00400000

/-! ## Rounding -/

/-- Whether the integer part q rounds away from zero: lo of md parts are discarded, with more below when `more`. -/
def roundsUp (rm : Nat) (neg : Bool) (q lo md : Nat) (more : Bool) : Bool :=
  match rm with
  | 0 => decide (md < 2 * lo) || (decide (md = 2 * lo) && (more || decide (q % 2 = 1)))
  | 1 => false
  | 2 => !neg && (decide (lo ≠ 0) || more)
  | _ => neg && (decide (lo ≠ 0) || more)

/-- The overflow result (R190). -/
def overflowWord (rm : Nat) (neg : Bool) : Word :=
  match rm with
  | 0 => fInf neg
  | 1 => fMax neg
  | 2 => if neg then fMax true else fInf false
  | _ => if neg then fInf true else fMax false

/-- Round (−1)^neg × (m + ε) × 2^e to binary32, where m is not 0 and 0 < ε < 1 exactly when `more`; then m has at
least 25 bits (R190, R374). -/
def roundTo32 (rm : Nat) (neg : Bool) (m : Nat) (e : Int) (more : Bool) : FResult :=
  let len := Nat.log2 m + 1
  let sh := len - 24
  let up := 24 - len
  let q0 := m * 2 ^ up / 2 ^ sh
  let lo := m % 2 ^ sh
  let q1 := q0 + if roundsUp rm neg q0 lo (2 ^ sh) more then 1 else 0
  let carry : Bool := decide (q1 = 2 ^ 24)
  let q := if carry then 2 ^ 23 else q1
  let lead : Int := e + sh - up + 23 + if carry then 1 else 0
  let inexact : Bool := decide (lo ≠ 0) || more
  if 127 < lead then .flagged (overflowWord rm neg) (fOF ||| fNX)
  else if lead < -126 then { val := fZero neg, flags := fUF ||| fNX, tiny := true }
  else
    .flagged (fSign neg ||| BitVec.ofNat 32 ((lead + 127).toNat * 2 ^ 23 + (q - 2 ^ 23))) (if inexact then fNX else 0)

/-- Round an exact integer multiple of 2^p; an exact zero is +0, or −0 toward −∞ (R193). -/
def roundInt (rm : Nat) (v p : Int) : FResult :=
  if v = 0 then .plain (fZero (decide (rm = 3))) else roundTo32 rm (decide (v < 0)) v.natAbs p false

/-- The largest root whose square does not exceed n, bit by bit from bit k − 1. -/
def rootBits (n : Nat) : Nat → Nat → Nat
  | 0, r => r
  | k + 1, r => rootBits n k (if (r + 2 ^ k) * (r + 2 ^ k) ≤ n then r + 2 ^ k else r)

/-! ## Operations on flushed operands -/

/-- The result for NaN operands, if any is one: NV for a signalling one (R375). -/
def nanResult (a b : Word) : Option FResult :=
  if fIsNan a ∨ fIsNan b then
    some (.flagged (fNanOf a b) (if fIsSnan a ∨ fIsSnan b then fNV else 0))
  else none

/-- ga + gb. -/
def addCore (rm : Nat) (a b : Word) : FResult :=
  if fIsInf a ∧ fIsInf b ∧ fNeg a ≠ fNeg b then .flagged fBadNan fNV
  else if fIsInf a then .plain a
  else if fIsInf b then .plain b
  else if fIsZero a ∧ fIsZero b then
    .plain (if fNeg a = fNeg b then a else fZero (decide (rm = 3)))
  else
    let p := min (if fIsZero a then fPow b else fPow a) (if fIsZero b then fPow a else fPow b)
    roundInt rm (fScaled a p + fScaled b p) p

def fpAdd (rm : Nat) (a b : Word) : FResult := (nanResult a b).getD (addCore rm (fFlush a) (fFlush b))

def fpSub (rm : Nat) (a b : Word) : FResult :=
  (nanResult a b).getD (addCore rm (fFlush a) (fFlush b ^^^ 0x80000000))

/-- ga × gb. -/
def mulCore (rm : Nat) (a b : Word) : FResult :=
  let neg := fNeg a != fNeg b
  if (fIsInf a ∧ fIsZero b) ∨ (fIsZero a ∧ fIsInf b) then .flagged fBadNan fNV
  else if fIsInf a ∨ fIsInf b then .plain (fInf neg)
  else if fIsZero a ∨ fIsZero b then .plain (fZero neg)
  else roundTo32 rm neg (fSig a * fSig b) (fPow a + fPow b) false

def fpMul (rm : Nat) (a b : Word) : FResult := (nanResult a b).getD (mulCore rm (fFlush a) (fFlush b))

/-- ga ÷ gb: 40 more bits of the quotient and whether a remainder is left. -/
def divCore (rm : Nat) (a b : Word) : FResult :=
  let neg := fNeg a != fNeg b
  if (fIsZero a ∧ fIsZero b) ∨ (fIsInf a ∧ fIsInf b) then .flagged fBadNan fNV
  else if fIsInf a then .plain (fInf neg)
  else if fIsZero b then .flagged (fInf neg) fDZ
  else if fIsInf b ∨ fIsZero a then .plain (fZero neg)
  else
    let n := fSig a * 2 ^ 40
    roundTo32 rm neg (n / fSig b) (fPow a - fPow b - 40) (decide (n % fSig b ≠ 0))

def fpDiv (rm : Nat) (a b : Word) : FResult := (nanResult a b).getD (divCore rm (fFlush a) (fFlush b))

/-- The square root of ga: a 32-bit root of the significand, scaled to an even power, and whether it is exact. -/
def sqrtCore (rm : Nat) (a : Word) : FResult :=
  if fIsZero a then .plain a
  else if fNeg a then .flagged fBadNan fNV
  else if fIsInf a then .plain a
  else
    let odd : Nat := if fPow a % 2 = 0 then 0 else 1
    let n := fSig a * 2 ^ (38 + odd)
    let r := rootBits n 32 0
    roundTo32 rm false r ((fPow a - 38 - odd) / 2) (decide (r * r ≠ n))

def fpSqrt (rm : Nat) (a : Word) : FResult := (nanResult a a).getD (sqrtCore rm (fFlush a))

/-! ## Comparisons -/

/-- Order key of a flushed word that is no NaN: its value as an integer, both zeros 0. -/
def fKey (w : Word) : Int := if fNeg w then -((w.toNat % 2 ^ 31 : Nat) : Int) else ((w.toNat % 2 ^ 31 : Nat) : Int)

def boolWord (b : Bool) : Word := if b then 1 else 0

def anyNan (a b : Word) : Bool := fIsNan a || fIsNan b
def anySnan (a b : Word) : Bool := fIsSnan a || fIsSnan b

/-- FEQ and FUN are quiet; FLT and FLE set NV on any NaN (R193, R346). -/
def fpEq (a b : Word) : FResult :=
  .flagged (boolWord (!anyNan a b && decide (fKey (fFlush a) = fKey (fFlush b)))) (if anySnan a b then fNV else 0)

def fpLt (a b : Word) : FResult :=
  .flagged (boolWord (!anyNan a b && decide (fKey (fFlush a) < fKey (fFlush b)))) (if anyNan a b then fNV else 0)

def fpLe (a b : Word) : FResult :=
  .flagged (boolWord (!anyNan a b && decide (fKey (fFlush a) ≤ fKey (fFlush b)))) (if anyNan a b then fNV else 0)

def fpUn (a b : Word) : FResult := .flagged (boolWord (anyNan a b)) (if anySnan a b then fNV else 0)

/-! ## Conversions (R206) -/

/-- A finite value rounded to an integer, and whether it changed. -/
def toInteger (rm : Nat) (a : Word) : Int × Bool :=
  if fIsZero a then (0, false)
  else
    let (q, lo, md) : Nat × Nat × Nat :=
      if 0 ≤ fPow a then (fSig a * 2 ^ (fPow a).toNat, 0, 1)
      else (fSig a / 2 ^ (-fPow a).toNat, fSig a % 2 ^ (-fPow a).toNat, 2 ^ (-fPow a).toNat)
    let q := q + if roundsUp rm (fNeg a) q lo md false then 1 else 0
    (if fNeg a then -(q : Int) else (q : Int), decide (lo ≠ 0))

/-- Into an integer range: a NaN gives 0, a value outside the range its limit, both with NV. -/
def fpToInt (rm : Nat) (lo hi : Int) (a : Word) : FResult :=
  let a := fFlush a
  if fIsNan a then .flagged 0 fNV
  else if fIsInf a then .flagged (BitVec.ofInt 32 (if fNeg a then lo else hi)) fNV
  else
    let (v, inexact) := toInteger rm a
    if v < lo then .flagged (BitVec.ofInt 32 lo) fNV
    else if hi < v then .flagged (BitVec.ofInt 32 hi) fNV
    else .flagged (BitVec.ofInt 32 v) (if inexact then fNX else 0)

/-- From an integer; 0 gives +0. -/
def fpOfInt (rm : Nat) (v : Int) : FResult := if v = 0 then .plain 0 else roundInt rm v 0

/-- Subnormal operands set DN (R374). -/
def withDn (sub : Bool) (r : FResult) : FResult := if sub then { r with flags := r.flags ||| fDN } else r

end Sys2Proof.Machine
end

