-- ==== Sys2Proof/Machine/Fault.lean ====
section
/-!
DEFINITION. The fault manager's and the Warden's commands of chapter 15.
-/
namespace Sys2Proof.Machine

/-- FAULT_EVENT (R498): a report, one that a unit has sent or one from outside, is judged and acted on. -/
def execFaultEvent (src : BitVec 8) (inst : BitVec 9) (detail : Word) (s : State) : Result :=
  let r : FltReport := ⟨src, inst, detail⟩
  .next (if s.hx1 then
    faultEvent (updFlt s fun f => { f with reports := f.reports.erase r }) r
  else s)

/-- The rotating self-test may run (R505, R506). -/
def bistMay (s : State) : Bool :=
  s.hx1 && runs s && getFlag s Reg.fltCtl 0 && s.ttb.ticked && decide (s.ttb.sentFor = some s.ttb.sail) && s.helm.run.isNone &&
    s.helm.preempted.isNone && s.helm.nq.isEmpty && s.helm.uq.isEmpty && s.flt.repair.isNone && !s.helm.held &&
    !bistBusy s

/-- TBIST reports of the tile rows of a mask (R501, R507). -/
def bistReports (s : State) (mask : BitVec 16) (col step : Nat) : State :=
  (List.range 16).foldl (fun s r =>
    if mask.getLsbD r then report s 0x02 (r * 17 + col) (BitVec.ofNat 32 step) else s) s

/-- BIST_STEP (R505–R508, R510): one step on the 16 tiles of a column begins, with what it finds: `failOnce` marks the
tile rows whose tile fails the step, `failTwice` those that fail its second run too. The step takes 1024 ACLK, and as
much again where a tile runs it twice (DESIGN CHOICE, log 189). -/
def execBistStep (failOnce failTwice : BitVec 16) (s : State) : Result :=
  .next (if bistMay s then
    let col := getField s Reg.fltBist 4 0
    let step := s.flt.bistStep
    let took := aclkTime s (if failOnce = 0 then 1024 else 2048)
    let s := updFlt s fun f => { f with bistEnd := s.now + took }
    let s := bistReports s failOnce col step
    let s := bistReports s (failOnce &&& failTwice) col step
    let bad := (List.range 16).filter fun r => failOnce.getLsbD r
    let s := if col = 16 then updFlt s fun f =>
        { f with spareBad := ((if step = 0 then [] else f.spareBad) ++ bad).eraseDups } else s
    if step + 1 = 32 then
      let s := updFlt s fun f => { f with bistStep := 0 }
      let s := setField s Reg.fltBist 4 0 (if col = 16 then 0 else col + 1)
      let s := setField s Reg.fltBist 15 8 (getField s Reg.fltBist 15 8 + 1)
      setField s Reg.fltBist 23 16 0
    else updFlt s fun f => { f with bistStep := step + 1 }
  else s)

/-- The persistent planes of a repaired row are unspecified (R513). -/
def spoilRow (s : State) (row : Nat) : State :=
  (persistentPlanes s.ttb.cur).foldl (fun s p => spoilPlane s p (tileRowMask row)) s

/-- SUBSTITUTION_DONE (R509 steps 3 and 4, R510, R511, R513). A held module repairs nothing (R527). -/
def execSubstitutionDone (s : State) : Result :=
  .next <| match s.flt.repair with
    | some r =>
      if r.step ≠ .substituting ∨ s.now < r.clearEnd ∨ bistBusy s ∨ s.wdn.held then s
      else
        let s := resetLatches (r.orders.foldl substitute s)
        match r.kind with
        | .inLoad => endRepair (logOrders (recordAfter (noteRepair s r) r) r none) r
        | .noCkpt =>
          let s := (r.orders.filterMap (·.tile)).foldl (fun s t => spoilRow s t.1) s
          let s := logOrders (noteNockpt (abandonFailed s r)) r (some 5)
          endRepair (recordAfter s r) r
        | _ =>
          let s := updFlt s fun f => { f with repair := some { r with step := .restoring } }
          updLdr s fun l => { l with restore := some l.ckPlanes }
    | none => s

/-- The tile maps as a repair record holds them. -/
def tileMaps (s : State) : List Word := (List.range 16).map (tmap s)

/-- REPAIR_RECORD_WRITE (R512): both copies in turn, each with the next sequence number. When a write fails, which of the
two it was, and whether that copy still holds what it held, are free values (DESIGN CHOICE, log 190). In a held module
the record stands as it was (R527). -/
def execRepairRecordWrite (ok : Bool) (s : State) : Result :=
  .next (if s.hx1 ∧ s.flt.recordDue ∧ s.wdn.held = false then
    let s := updFlt s fun f => { f with recordDue := false }
    let seqOf (r : Option (Nat × List Word)) : Nat := match r with | some p => p.1 | none => 0
    let n := max (seqOf s.wdn.recordA) (seqOf s.wdn.recordB) + 1
    let rec_ := some (n, tileMaps s)
    if ok then updWdn s fun w => { w with recordA := rec_, recordB := rec_ }
    else
      let first := freeNat s % 2 = 0
      let lost := freeNat (usedFree s) % 2 = 0
      updWdn (setFlag (usedFree (usedFree s)) Reg.fltStat 5) fun w =>
        if first then { w with recordA := if lost then none else w.recordA }
        else { w with recordA := rec_, recordB := if lost then none else w.recordB }
  else s)

/-- The first staged source that R525 refuses, with its code. -/
def badSource (s : State) : Option (Nat × Nat) :=
  (List.range 20).findSome? fun n =>
    let v := reg s (Reg.fltSrc + 4 * n)
    let act := bits v 28 27
    if (act = 1 ∧ 2 < n) ∨ (act = 2 ∧ n ≠ 9) then some (n, 1)
    else if bit v 29 ∧ n ≠ 1 then some (n, 2)
    else none

/-- FLT_SRC_COMMIT (R525). -/
def execFltSrcCommit (wr : Writer) (s : State) : Result :=
  .next (onWrite s wr Reg.fltSrcCommit fun s =>
    match badSource s with
    | some (n, code) => setReg s Reg.fltSrcCstat (fld n 8 ||| fld code 0)
    | none =>
      let src := (List.range 20).foldl (fun l n => storePut 0 l n (reg s (Reg.fltSrc + 4 * n))) []
      setReg (updFlt s fun f => { f with src := src }) Reg.fltSrcCstat 0)

/-- FLT_SWD_COMMIT (R526): the Warden applies the set from the next tick. -/
def execFltSwdCommit (wr : Writer) (s : State) : Result :=
  .next (onWrite s wr Reg.fltSwdCommit fun s =>
    setReg (updFlt s fun f => { f with swdNext := reg s Reg.fltSwd }) Reg.fltSwdCstat 0)

/-- FLT_LOG_POP (R523). -/
def execFltLogPop (wr : Writer) (s : State) : Result :=
  .next (onWrite s wr Reg.fltLogPop fun s => updFlt s fun f => { f with log := f.log.tail })

/-- SAILING_WATCHDOG_EXPIRY (R519): the timer has run out in RUN or DEGRADED. -/
def execSailingWatchdogExpiry (s : State) : Result :=
  .next <| match s.wdn.swdAt with
    | some t => if t ≤ s.now ∧ watchdogRuns s then watchdogExpires s else s
    | none => s

/-- A verdict of the Warden on itself: HEALTHY falls until LOAD, ALARM, and its log entry (R520, R521). -/
def wardenVerdict (s : State) (detail : Word) : State :=
  logEntry (raiseAlarm (dropHealthyForGood s) 3) 8 0x12 0 detail

/-- WARDEN_NO_MAJORITY (R520). -/
def execWardenNoMajority (s : State) : Result := .next (if s.hx1 then wardenVerdict s 3 else s)

/-- A clock comparison is due; the first one sets the phase of the 1 ms spacing (R521). -/
def comparisonDue (s : State) : Bool :=
  match s.wdn.clkNext with
  | none => true
  | some t => decide (t ≤ s.now)

/-- CLOCK_COMPARISON (R521): the third miss in a row lowers HEALTHY. -/
def execClockComparison (apart : Bool) (s : State) : Result :=
  .next (if s.hx1 = false ∨ comparisonDue s = false then s
  else
    let s := updWdn s fun w => { w with clkNext := some (w.clkNext.getD s.now + 1000000) }
    if apart = false then updWdn s fun w => { w with clkMiss := 0 }
    else
      let n := s.wdn.clkMiss + 1
      let s := updWdn s fun w => { w with clkMiss := n }
      if n = 3 then wardenVerdict s 2 else s)

/-- TMR_COPY_DISAGREEMENT (R520). -/
def execTmrCopyDisagreement (s : State) : Result :=
  .next (if s.hx1 then countField s Reg.fltWdn 15 8 1 else s)

end Sys2Proof.Machine
end

