-- ==== Sys2Proof/Machine/Landing.lean ====
section
/-!
DEFINITION. LANDING: what the Helm does at a landing with the requests that wait (R109–R114).
-/
namespace Sys2Proof.Machine

/-- A preemption's spill: the latches into planes 4080–4084 and 0 into 4085–4087, in every PE; the context into
the save area, whose bytes are the Helm's own; then the latches as at a start (R114, R115). -/
def spillLatches (s : State) : State :=
  let a := s.arr
  let put (s : State) (p : Nat × Plane) : State := (planeWrite s p.1 p.2 allPes).1
  [(4080, a.c), (4081, a.d), (4082, a.x), (4083, a.m), (4084, a.q), (4085, 0), (4086, 0), (4087, 0)].foldl put s

/-- The context goes to Bank 1, in the Helm's own layout: 256 free bytes. -/
def saveContext (s : State) : State :=
  let bs := (rangeFrom 0 256).map fun i => byteOf (freeNat s) i
  (homeWrite (usedFree s) 1 0x7FFF00 bs).1

/-- Preempt the running normal kernel (R113, R114). -/
def preempt (s : State) (k : KernelCtx) : State :=
  let s := resetLatches (saveContext (spillLatches s))
  updHelm s fun h =>
    { h with run := none, preempted := some { k with stop := h.stopReq }, landing := false, stopReq := false }

/-- The highest request below the fault stop, at a landing of a running kernel or with none running. -/
def lowerRequest (s : State) : State :=
  if s.helm.holdReq then updHelm s fun h => { h with held := true, holdReq := false }
  else if s.helm.dbgReq then
    updHelm s fun h => { h with dbgHalt := true, dbgReq := false }
  else match s.helm.run with
    | none => updHelm s fun h => { h with landing := false, stopReq := false }
    | some k =>
      if k.req.abandoned then endRun s k 3
      else if k.req.urgent = false ∧ s.helm.uq ≠ [] ∧ s.helm.preempted = none then preempt s k
      else if s.helm.stopReq then endRun s k 4
      else updHelm s fun h => { h with landing := false }

/-- At a landing, with nothing outstanding: the highest request is acted on (R110). -/
def atLanding (s : State) : State :=
  let s := endGap s
  match stopOrdered s with
  | some r => faultStop s r
  | none => if s.helm.held ∨ (s.helm.dbgHalt ∧ s.helm.holdReq = false) then s else lowerRequest s

/-- At a stall that waits on another unit, a fault stop and a Warden hold are taken too, once the module-scope
work is complete (R112). -/
def atStall (s : State) : State :=
  match stopOrdered s with
  | some r => faultStop (updHelm s discardInstallation) r
  | none => if s.helm.holdReq then updHelm s fun h => { h with held := true, holdReq := false } else s

/-- The running kernel has issued its END, and its report has not come. -/
def atEnd (h : HelmState) : Bool := match h.run with | some k => k.ended && k.halt.isNone | none => false

/-- LANDING (R109, R110, R112): the start of a kernel, a landing microword, any instant at which no kernel
runs, or a stall on another unit; with no request the landing passes. Between an END and the report of its kernel a fault
stop is taken, which cuts the kernel-end barrier short (R199). Where the debugger has the Helm halted away from
a landing, a Warden hold alone is taken. -/
def execLanding (s : State) : Result :=
  .next (if s.hx1 = false then s
  else if (s.helm.landing ∨ s.helm.run = none) ∧ outstanding s.helm = false then atLanding s
  else if atEnd s.helm ∧ outstanding s.helm = false ∧ (stopOrdered s).isSome then
    match stopOrdered s with
    | some r => faultStop s r
    | none => s
  else if debugHolds s.helm then
    (if s.helm.holdReq then updHelm s fun h => { h with held := true, holdReq := false } else s)
  else if s.helm.landing = false ∧ unitStall s ∧ outstandingHere s.helm = false then atStall s
  else s)

end Sys2Proof.Machine
end

