-- ==== Sys2Proof/Machine/DebugCore.lean ====
section
/-!
DEFINITION. Debug sessions: the challenge and its answer, the levels, what ends a session, and the run control of
the Helm (R553–R559, R567, R568).
-/
namespace Sys2Proof.Machine

/-- A change of the debug unit's state. -/
def updDbg (s : State) (f : DbgState → DbgState) : State := { s with dbg := f s.dbg }

/-! ## Sessions -/

/-- The level of a path's session, 0 for none: a session opens the registers to its own path (R553, R557). -/
def dbgLevel (s : State) (path : DbgPath) : Nat :=
  match s.dbg.session with
  | some (l, p) => if p = path then l.toNat else 0
  | none => 0

/-- A request of a path that needs a level: without a session nothing happens, above the session's level DENIED is
set (R553, R558). -/
def dbgAsk (s : State) (path : DbgPath) (need : Nat) (act : State → State) : State :=
  if s.hx1 = false ∨ dbgLevel s path = 0 then s
  else if dbgLevel s path < need then setFlag s Reg.dbgStat 7
  else act s

/-- The same for a request that acts: a held module only answers debug reads (17, Modes). -/
def dbgAct (s : State) (path : DbgPath) (need : Nat) (act : State → State) : State :=
  dbgAsk s path need fun s => if s.wdn.held then s else act s

/-- Every breakpoint and BRKHALT is cleared (R557). -/
def clearBreakpoints (s : State) : State :=
  let s := (List.range 4).foldl (fun s n => setField s (Reg.dbgIbp + 4 * n) 0 0 0) s
  let s := (List.range 2).foldl (fun s n => setField s (Reg.dbgDbpc + 4 * n) 0 0 0) s
  setField s Reg.dbgCtl 4 4 0

/-- The Helm continues (R567). -/
def resumeHelm (s : State) : State := updHelm s fun h => { h with dbgReq := false, dbgHalt := false, dbgStep := false }

/-- A session ends (R557). -/
def endSession (s : State) : State :=
  updDbg (resumeHelm (resumePilots (clearBreakpoints s))) fun d => { d with session := none }

/-- A BAR0 session ends at a reset of the PCIe endpoint (R557). -/
def endBar0Session (s : State) : State :=
  match s.dbg.session with
  | some (_, .bar0) => endSession s
  | _ => s

/-! ## Authentication (R554–R556) -/

/-- The path's code in the message of the response. -/
def pathCode (p : DbgPath) : Nat :=
  match p with
  | .jtag => 0
  | .bar0 => 1

/-- The result of the last ANSWER (R555). -/
def authCode (s : State) (c : BitVec 4) : State := updDbg s fun d => { d with code := c }

/-- A CHALLENGE: 16 free bytes replace any earlier challenge; a lockout refuses it (R554, R556). -/
def challenge (s : State) (path : DbgPath) : State :=
  if s.hx1 = false then s
  else if s.dbg.lockEnd.isSome then authCode s 3
  else
    let c := BitVec.ofNat 128 (freeNat s)
    updDbg (usedFree s) fun d => { d with chal := some (c, path, s.now + 10000000000), shown := c }

/-- The challenge of a path. -/
def challengeOf (s : State) (path : DbgPath) : Option (BitVec 128) :=
  match s.dbg.chal with
  | some (c, p, t) => if p = path ∧ s.now < t then some c else none
  | none => none

/-- The 32 bytes written to DBG_RESP0–DBG_RESP7. -/
def responseBytes (s : State) : List Byte :=
  (List.range 8).flatMap fun n => bytesOf (reg s (Reg.dbgResp + 4 * n)).toNat 4

/-- The response that a challenge, a level and a path ask for (17, Authentication). -/
def wantedResponse (c : BitVec 128) (level : BitVec 2) (path : DbgPath) : List Byte :=
  hmacSha256 (bytesOf Config.debugKey 32)
    (bytesOf c.toNat 16 ++ [level.zeroExtend 8, BitVec.ofNat 8 (pathCode path)])

/-- A BADRESP: the third in a row starts a lockout of 60 s (R556). -/
def badResponse (s : State) : State :=
  let n := min 3 (s.dbg.fails + 1)
  updDbg (authCode s 1) fun d =>
    { d with fails := n, lockEnd := if n = 3 then some (s.now + 60000000000) else d.lockEnd }

/-- A session opens, or its level changes; at BENCH level it orders BENCH (R555, R559). -/
def openSession (s : State) (level : BitVec 2) (path : DbgPath) : State :=
  let s := updDbg (authCode s 0) fun d => { d with fails := 0, session := some (level, path) }
  if level = 3 then
    if s.mode = .run ∨ s.mode = .degraded then order s .bench
    else if s.mode = .load then updWdn s fun w => { w with benchFirst := true }
    else s
  else s

/-- An ANSWER (R555). -/
def answer (s : State) (path : DbgPath) (level : BitVec 2) : State :=
  if s.hx1 = false then s
  else
    let c := challengeOf s path
    let other : Bool := match s.dbg.session with
      | some (_, p) => decide (p ≠ path)
      | none => false
    let s := if c.isSome then updDbg s fun d => { d with chal := none } else s
    if s.dbg.lockEnd.isSome then authCode s 3
    else if other then authCode s 4
    else match c with
      | none => authCode s 2
      | some c =>
        if level = 0 ∨ responseBytes s ≠ wantedResponse c level path then badResponse s
        else openSession s level path

/-- A LOGOUT ends a session of its own path (R557). -/
def logout (s : State) (path : DbgPath) : State := if dbgLevel s path = 0 then s else endSession s

/-! ## Helm run control (R567, R568) -/

/-- The Helm stands halted: a STEP's microword has issued and left nothing outstanding. -/
def helmHalted (s : State) : Bool :=
  s.helm.dbgHalt && !s.helm.dbgStep && !outstanding s.helm && !(s.helm.run.any fun k => k.ended)

/-- It stands halted at a landing. -/
def helmAtLanding (s : State) : Bool := helmHalted s && (s.helm.landing || s.helm.run.isNone)

/-- DBG_HLMSTAT.CODE. -/
def hlmCode (s : State) (c : BitVec 4) : State := updDbg s fun d => { d with hlmCode := c }

/-- HALT: at the next landing, or at once with no kernel running. -/
def helmHalt (s : State) : State :=
  let s := hlmCode s 0
  if s.helm.dbgHalt then s
  else if s.helm.run.isNone then updHelm s fun h => { h with dbgHalt := true, dbgReq := false }
  else updHelm s fun h => { h with dbgReq := true }

/-- The next microword of a STEP issues now, when nothing else holds it; else it issues as soon as it may. -/
def stepIssue (s : State) : State :=
  match mayIssue s with
  | none => s
  | some k => issueNext s k (fun _ => true) fun m =>
      if m.spec = 1 then issueAbar s k m
      else if m.spec = 3 then startHalow s k m
      else issueWord s k m

/-- STEP. A Warden hold refuses it, and RESUME too (R112); the spec names no code for that refusal: the model reads
NOTHALTED (DESIGN CHOICE, log 161). -/
def helmStep (s : State) : State :=
  if helmHalted s = false ∨ s.helm.held then hlmCode s 1
  else if s.helm.run.isNone then hlmCode s 0
  else stepIssue (updHelm (hlmCode s 0) fun h => { h with dbgStep := true, landing := false })

/-- RESUME. -/
def helmResume (s : State) : State :=
  if s.helm.dbgHalt ∧ s.helm.held = false then resumeHelm (hlmCode s 0) else hlmCode s 1

/-- SPILL: the latches into planes 4080–4084 regardless of M (R568). -/
def spillPlanes (s : State) : State :=
  let a := s.arr
  let put (s : State) (p : Nat × Plane) : State := (planeWrite s p.1 p.2 allPes).1
  [(4080, a.c), (4081, a.d), (4082, a.x), (4083, a.m), (4084, a.q)].foldl put s

/-- SPILL, refused while the Helm is not halted or a kernel is preempted. -/
def helmSpill (s : State) : State :=
  if helmHalted s = false then hlmCode s 1
  else if s.helm.preempted.isSome then hlmCode s 2
  else spillPlanes (hlmCode s 0)

/-- What a reserved CMD of DBG_HLM does: nothing but the record of R24, as any reserved encoding. -/
def helmCommand (s : State) (wr : Writer) (cmd : Nat) : State :=
  match cmd with
  | 1 => helmHalt s
  | 2 => helmStep s
  | 3 => helmResume s
  | 4 => helmSpill s
  | _ => noteReserved s wr Reg.dbgHlm

/-! ## Gangway (R569) -/

/-- The word that a full register has discarded now, with OVF as it stood (bit k of GW_STAT). -/
def gwLose (s : State) (v : Word) (k : Nat) : Option GwLost :=
  some { came := s.now, word := v, ovf := getFlag s Reg.gwStat k }

/-- A word was discarded at this instant, which is one NCLK (log 173): an emptying of the register comes first after
all. -/
def lostNow (s : State) (l : Option GwLost) : Option GwLost := l.filter fun x => decide (x.came = s.now)

/-- The debugger's write of GW_RX. -/
def gwRxPut (s : State) (v : Word) : State :=
  if s.dbg.gwRxFull then updDbg (setFlag s Reg.gwStat 4) fun d => { d with gwRxLost := gwLose s v 4 }
  else updDbg s fun d => { d with gwRx := v, gwRxFull := true }

/-- Firmware's read of GW_RX empties it, ahead of a write of the same NCLK. -/
def gwRxTake (s : State) : State :=
  match lostNow s s.dbg.gwRxLost with
  | none => updDbg s fun d => { d with gwRxFull := false }
  | some x => updDbg (setField s Reg.gwStat 4 4 x.ovf.toNat) fun d => { d with gwRx := x.word, gwRxLost := none }

/-- Firmware's write of GW_TX. -/
def gwTxPut (s : State) (v : Word) : State :=
  if s.dbg.gwTxFull then updDbg (setFlag s Reg.gwStat 3) fun d => { d with gwTxLost := gwLose s v 3 }
  else updDbg s fun d => { d with gwTx := v, gwTxFull := true }

/-- The debugger writes 1 to GW_STAT.TXFULL, ahead of firmware's write of the same NCLK. -/
def gwTxEmpty (s : State) : State :=
  match lostNow s s.dbg.gwTxLost with
  | none => updDbg s fun d => { d with gwTxFull := false }
  | some x => updDbg (setField s Reg.gwStat 3 3 x.ovf.toNat) fun d => { d with gwTx := x.word, gwTxLost := none }

end Sys2Proof.Machine
end

