-- ==== Sys2Proof/Machine/Warden.lean ====
section
/-!
DEFINITION. The Warden's commands: supply and shutdowns, wakes, mode commands, the array clock request, the tag
area, the flash window, and SMBus (16).
-/
namespace Sys2Proof.Machine

/-! ## Supply (R529, R545) -/

/-- VIN stands at a level, in mV; the lowest since the last read is kept (PWR_VIN.MIN). Above 6.2 V a hold-up is over,
from 5.0 V up the 50 ms of a low VIN are (R529). -/
def readVin (s : State) (mv : BitVec 16) : State :=
  updWdn s fun w =>
    { w with pinVin := mv, vin := mv, vinMin := if w.vinMin = 0 ∨ mv < w.vinMin then mv else w.vinMin,
             holdup := if 6200 < mv.toNat then none else w.holdup,
             sagging := if 5000 ≤ mv.toNat then none else w.sagging }

/-- The HX1 runs on its rails, in LOAD or later. -/
def powered (s : State) : Bool := decide (s.mode = .load) || runs s

/-- VIN lies within the limits of a wake (R533). -/
def vinGood (s : State) : Bool := decide (6200 ≤ s.wdn.pinVin.toNat) && decide (s.wdn.pinVin.toNat ≤ 58000)

/-- A bit of PWR_WAKECFG: 0 IGN, 1 SMB, 2 PERST. -/
def wakeCfg (s : State) (k : Nat) : Bool := getFlag s Reg.pwrWakecfg k

/-- After a thermal shutdown no wake is taken for 10 s, nor while the Warden's own sensor reads above 95 °C (R544). -/
def coolEnough (s : State) : Bool :=
  match s.wdn.thermal with
  | none => true
  | some t => decide (t ≤ s.now) && !s.wdn.wardenHot

/-- A wake is possible: STANDBY, none under way, VIN good, and no thermal block (R533, R544). -/
def mayWake (s : State) : Bool :=
  decide (s.mode = .standby) && s.wdn.waking.isNone && vinGood s && coolEnough s

/-- The debounce after a wake: 10 ms; the 10 ms for which IGN_WAKE stood high, or VIN stood within its limits, are one
already (DEDUCED, log 191). -/
def debounce (code : BitVec 4) : Nat := if code = 2 ∨ code = 3 then 10000000 else 0

/-- Start a wake with its WDN_STAT.WAKE code, where one is possible. -/
def startWake (s : State) (code : BitVec 4) : State :=
  if mayWake s then updWdn s fun w => { w with waking := some code, dueAt := s.now + debounce code } else s

/-- IGN_WAKE has stood high for 10 ms and may wake the module by its level (R533). -/
def ignWakes (s : State) : Bool :=
  s.wdn.ign && decide (s.wdn.ignDue ≤ s.now) && wakeCfg s 0 && !s.wdn.ignBlocked

/-- A copy of the tag area, the newer of two (R543). -/
def newerTags (a b : Option (Nat × List (Nat × Byte))) : List (Nat × Byte) :=
  match a, b with
  | some (m, x), some (n, y) => if m < n then y else x
  | some (_, x), none => x
  | none, some (_, y) => y
  | none, none => []

/-- VIN_RISE (R529, R532, R533, R543): VIN above 5.5 V takes OFF to STANDBY; in any other mode the rise is a reading
that may end a hold-up. -/
def execVinRise (mv : BitVec 16) (straps : Straps) (ignWake : Bool) (s : State) : Result :=
  .next (if s.mode ≠ .off then readVin s mv
  else if mv.toNat ≤ 5500 then s
  else
    let s := setMode (readVin s mv) .standby
    let s := updWdn s fun w =>
      { w with smbNode := straps.node, straps := straps, ign := ignWake, ignDue := s.now, pulse := false, healthy := false,
               tags := newerTags w.tagA w.tagB, tagDirty := false }
    if ignWakes s then startWake s 1 else s)

/-- VIN_LOW (R529): below 5.8 V the rails hold up; below 5.0 V the Warden has 50 ms. -/
def execVinLow (mv : BitVec 16) (s : State) : Result :=
  .next (if s.mode = .off ∨ 5800 ≤ mv.toNat then s
  else
    let s := updWdn (readVin s mv) fun w =>
      { w with sagging := if mv.toNat < 5000 then (if w.sagging.isSome then w.sagging else some s.now) else none }
    if powered s ∧ s.wdn.holdup.isNone then
      monitor (updWdn s fun w => { w with holdup := some s.now }) 0 (mv.zeroExtend 32)
    else s)

/-- BROWN_OUT (R529): VIN is still low when the hold-up of 200 µs ends. -/
def execBrownOut (s : State) : Result :=
  .next <| match s.wdn.holdup with
    | some t => if powered s ∧ t + 200000 ≤ s.now then enterStandby s 3 else s
    | none => s

/-- WARDEN_POWER_LOSS (R529): below 4.5 V, or below 5.0 V for more than 50 ms. -/
def execWardenPowerLoss (mv : BitVec 16) (s : State) : Result :=
  let long : Bool := match s.wdn.sagging with
    | some t => decide (mv.toNat < 5000) && decide (t + 50000000 ≤ s.now)
    | none => false
  .next (if s.mode ≠ .off ∧ (mv.toNat < 4500 ∨ long) then enterOff (readVin s mv) else s)

/-- OVERVOLTAGE_SHUTDOWN (R529): above 58.5 V. -/
def execOvervoltageShutdown (mv : BitVec 16) (s : State) : Result :=
  .next (if s.mode = .off ∨ mv.toNat ≤ 58500 then s
  else
    let s := readVin s mv
    if powered s then enterStandby s 4 else s)

/-- THERMAL_SHUTDOWN (R544): a junction at 125 °C or above. -/
def execThermalShutdown (junction : BitVec 16) (s : State) : Result :=
  .next (if powered s ∧ 2000 ≤ junction.toInt then
    enterStandby (alert (updWdn s fun w => { w with tempJ := junction }) 3) 5
  else s)

/-- RAIL_FAULT (R545): instances 2 to 6. -/
def execRailFault (inst : BitVec 4) (_reading : Word) (s : State) : Result :=
  .next (if powered s ∧ 2 ≤ inst.toNat ∧ inst.toNat ≤ 6 then enterStandby s 6 else s)

/-- PLL_FAULT (R545). -/
def execPllFault (_reading : Word) (s : State) : Result := .next (if powered s then enterStandby s 7 else s)

/-! ## Wakes (R533, R534, R544) -/

/-- IGN_WAKE_HIGH (R533): the line has been high for 10 ms. -/
def execIgnWakeHigh (s : State) : Result :=
  .next (if s.mode = .off then s
  else
    let s := updWdn s fun w => { w with ign := true, ignDue := s.now }
    if ignWakes s then startWake s 1 else s)

/-- IGN_WAKE_FALL (R534, R536, R538). -/
def execIgnWakeFall (s : State) : Result :=
  .next (if s.mode = .off then s
  else
    let s := updWdn s fun w => { w with ign := false, ignBlocked := false }
    if powered s = false ∨ wakeCfg s 0 = false then s
    else
      let off := getField s Reg.pwrWakecfg 15 8
      if s.wdn.held ∨ off = 0 then orderSleep s 2
      else updWdn s fun w => { w with ignOff := some (s.now + off * 1000000000) })

/-- IGNOFF_EXPIRY (R534); with WAKECFG.IGN clear the timer orders nothing. -/
def execIgnoffExpiry (s : State) : Result :=
  .next <| match s.wdn.ignOff with
    | some t =>
      if powered s ∧ t ≤ s.now then
        let s := updWdn s fun w => { w with ignOff := none }
        if wakeCfg s 0 then orderSleep s 2 else s
      else s
    | none => s

/-- IGN_WAKE_RISE (R533, R534): the line has 10 ms to stand high before it may wake the module. -/
def execIgnWakeRise (s : State) : Result :=
  .next (if s.mode = .off then s
  else updWdn s fun w =>
    { w with ign := true, ignDue := if w.ign then w.ignDue else s.now + 10000000, ignBlocked := false, ignOff := none })

/-- VIN_RETURN_WAKE (R533): VIN has stayed within 6.2 V to 58.0 V for 10 ms after a shutdown, at a level that is
not given; IGN_WAKE high then wakes the module again. -/
def execVinReturnWake (s : State) : Result :=
  .next (if s.mode ≠ .standby ∨ s.now < s.wdn.dueAt ∨ s.wdn.rewake = false ∨ ignWakes s = false ∨
      coolEnough s = false ∨ s.wdn.waking.isSome then s
  else
    let mv : BitVec 16 := BitVec.ofNat 16 (6200 + freeNat s % 51801)
    let s := updWdn (usedFree s) fun w => { w with pinVin := mv, vin := mv, sagging := none }
    startWake s (if s.wdn.cause = 3 then 4 else 1))

/-- THERMAL_WAKE_BLOCK_END (R544): the 10 s are over, and the Warden's sensor reads above 95 °C or not; wakes are
honoured while it does not. -/
def execThermalWakeBlockEnd (wardenHot : Bool) (s : State) : Result :=
  .next <| match s.wdn.thermal with
    | some t =>
      if s.mode = .standby ∧ t ≤ s.now then
        let s := updWdn s fun w => { w with wardenHot := wardenHot }
        if s.wdn.rewake ∧ ignWakes s then startWake s 1 else s
      else s
    | none => s

/-- WAKE_DEBOUNCE_END (R531, R532): LOAD, and the rails begin to rise. -/
def execWakeDebounceEnd (s : State) : Result :=
  .next <| match s.wdn.waking with
    | some c =>
      if s.mode = .standby ∧ s.wdn.dueAt ≤ s.now then
        updWdn (setMode s .load) fun w =>
          { w with waking := none, wake := c, rails := true, dueAt := s.now + 500000, others := [], limits := 0, rewake := false,
                   thermal := none }
      else s
    | none => s

/-! ## Mode commands and the array clock (R252, R532, R536) -/

/-- SLEEP (R532): PWR_CMD SLEEP; a held module takes none from PWR_CMD (R536). -/
def execSleep (wr : Writer) (s : State) : Result :=
  .next (onWrite s wr Reg.pwrCmd fun s => if s.wdn.held then s else orderSleep (setReg s Reg.pwrCmdCstat 0) 1)

/-- RESTART (R532). -/
def execRestart (wr : Writer) (s : State) : Result :=
  .next (onWrite s wr Reg.pwrCmd fun s => if s.wdn.held then s else orderRestart (setReg s Reg.pwrCmdCstat 0))

/-- PWR_ACLK_COMMIT (R252). -/
def execPwrAclkCommit (wr : Writer) (s : State) : Result :=
  let v := reg s Reg.pwrAclk
  .next (onWrite s wr Reg.pwrAclkCommit fun s => updWdn s fun w =>
    { w with aclkPend := some { n := bits v 4 0, asap := bit v 8,
                                tgt := BitVec.ofNat 48 (reg2 s Reg.pwrAclkTgtLo Reg.pwrAclkTgtHi) } })

/-! ## The tag area (R543) -/

/-- A tag byte of the Warden's copy. -/
def tagByte (s : State) (a : Nat) : Byte := storeGet 0 s.wdn.tags a

/-- An SMBus write that came at the same instant covers byte a of another party's write: it is applied last (R543). -/
def smbCovers (w : WdnState) (x : TagWrite) (a : Nat) : Bool :=
  !x.smb && match w.tagSmb with
    | some y => decide (y.came = x.came) && decide (y.first ≤ a) && decide (a < y.first + y.bytes.length)
    | none => false

/-- A write of tag bytes changes the Warden's copy, and is owed to flash (R543). -/
def putTags (w : WdnState) (x : TagWrite) : WdnState :=
  let bs := ((rangeFrom x.first x.bytes.length).zip x.bytes).map fun p =>
    if smbCovers w x p.1 then storeGet 0 w.tags p.1 else p.2
  { w with tags := putBytes w.tags x.first bs, tagDirty := true, tagSmb := if x.smb then some x else w.tagSmb }

/-- Tag bytes are written: at once, or when the flash write that runs has ended (R543). -/
def writeTags (s : State) (smb : Bool) (a : Nat) (bs : List Byte) : State :=
  updWdn s fun w =>
    let x : TagWrite := { came := s.now, smb := smb, first := a, bytes := bs }
    if w.tagBusy.isSome then { w with tagDirty := true, tagWaits := w.tagWaits ++ [x] } else putTags w x

/-- The flash write of the tag area has ended: the writes that waited for it are applied (R543). -/
def endTagWrite (w : WdnState) : WdnState :=
  w.tagWaits.foldl putTags { w with tagBusy := none, tagWaits := [] }

/-- TAG_AREA_WRITE (R543). -/
def execTagAreaWrite (wr : Writer) (n : BitVec 7) (val : Word) (s : State) : Result :=
  .next (onWrite s wr (Reg.wdnTag + 4 * n.toNat) fun s =>
    writeTags s false (4 * n.toNat) (bytesOf val.toNat 4))

/-- TAG_FLASH_WRITE (R543): the write of the copy to the flash copy whose turn it is ends. After a failed write, whether
that flash copy still holds is left open. -/
def execTagFlashWrite (ok : Bool) (s : State) : Result :=
  .next (if s.mode = .off ∨ s.wdn.tagDirty = false then s
  else
    let n := tagSequence s.wdn + 1
    if ok then
      updWdn s fun w => endTagWrite
        { w with tagDirty := false, tagNextB := !w.tagNextB,
                 tagA := if w.tagNextB then w.tagA else some (n, w.tags),
                 tagB := if w.tagNextB then some (n, w.tags) else w.tagB }
    else
      let lost : Bool := decide (freeNat s % 2 = 1)
      let s := usedFree (alert (setFlag s Reg.wdnTagstat 1) 4)
      updWdn s fun w => endTagWrite
        { w with tagA := if lost && !w.tagNextB then none else w.tagA,
                 tagB := if lost && w.tagNextB then none else w.tagB })

/-! ## The flash window (R548) -/

/-- Flash address of WDN_FL_ADDR. -/
def flashAddr (s : State) : Nat := getField s Reg.wdnFlAddr 26 12 * 4096

/-- n bytes at a lie in a range that the window refuses. -/
def flashProtected (a : Nat) : Bool :=
  (decide (0x10000 ≤ a) && decide (a < 0x20000)) || (decide (0x30000 ≤ a) && decide (a < 0xC00000))

/-- A window operation is accepted, or refused with PROTECTED, or with BUSY while another one, a tag write or a LOAD image
read runs. -/
def flashStart (s : State) (wr : Writer) (op : FlashOp) : State :=
  onWrite s wr Reg.wdnFlCmd fun s => if flashProtected (flashAddr s) then updWdn s fun w => { w with flashCode := 2 }
  else if s.wdn.flashOp.isSome ∨ s.wdn.tagBusy.isSome ∨ (s.wdn.booting ∧ s.wdn.verified = false) then
    updWdn s fun w => { w with flashCode := 1 }
  else updWdn s fun w => { w with flashOp := some op, flashCode := 1 }

/-- FLASH_READ (R548). -/
def execFlashRead (wr : Writer) (s : State) : Result := .next (flashStart s wr (.read (flashAddr s / 4096)))

/-- FLASH_PROGRAM (R548). -/
def execFlashProgram (wr : Writer) (s : State) : Result := .next (flashStart s wr (.program (flashAddr s / 4096)))

/-- FLASH_ERASE (R548). -/
def execFlashErase (wr : Writer) (s : State) : Result := .next (flashStart s wr (.erase (flashAddr s / 65536)))

/-- The page buffer. -/
def flashBuffer (s : State) : List Byte :=
  (List.range 1024).flatMap fun k => bytesOf (reg s (Reg.wdnFlBuf + 4 * k)).toNat 4

/-- The page buffer takes a page's bytes. -/
def fillBuffer (s : State) (bs : List Byte) : State :=
  (List.range 1024).foldl
    (fun s k => setReg s (Reg.wdnFlBuf + 4 * k) (BitVec.ofNat 32 (numOf ((bs.drop (4 * k)).take 4)))) s

/-- n free bytes over boot flash. -/
def flashFree (s : State) (a n : Nat) : State := usedFree (pokeFlash s a ((rangeFrom 0 n).map fun i => byteOf (freeNat s) i))

/-- After a change of the control block's sector, what its valid copy says (16, Boot flash). -/
def rereadControl (s : State) (a : Nat) : State :=
  if a < 0x10000 then updWdn s fun w => { w with control := Config.controlBlock (flashNum s 0 65536) } else s

/-- What a finished window operation leaves. A failed PROGRAM or ERASE, and a PROGRAM of a page not erased since
its last one, leave free bytes. -/
def flashEffect (s : State) (op : FlashOp) (ok : Bool) : State :=
  match op with
  | .read p => if ok then fillBuffer s (flashBytes s (4096 * p) 4096) else s
  | .program p =>
    let s' := if ok ∧ p ∉ s.wdn.programmed then pokeFlash s (4096 * p) (flashBuffer s) else flashFree s (4096 * p) 4096
    rereadControl (updWdn s' fun w => { w with programmed := p :: w.programmed.filter (fun q => decide (q ≠ p)) }) (4096 * p)
  | .erase k =>
    let s' := if ok then pokeFlash s (65536 * k) (List.replicate 65536 0xFF) else flashFree s (65536 * k) 65536
    let s' := if ok then updWdn s' fun w => { w with programmed := w.programmed.filter fun q => decide (q / 16 ≠ k) } else s'
    rereadControl s' (65536 * k)

/-- FLASH_OP_DONE (R548). -/
def execFlashOpDone (ok : Bool) (s : State) : Result :=
  .next <| match s.wdn.flashOp with
    | some op =>
      updWdn (flashEffect s op ok) fun w => { w with flashOp := none, flashCode := if ok then 0 else 3 }
    | none => s

/-! ## SMBus (R546, R587) -/

/-- MODE code of PWR_STAT, 0 in OFF. -/
def Mode.code (m : Mode) : Nat :=
  match m with
  | .off => 0 | .standby => 1 | .load => 2 | .run => 3 | .degraded => 4 | .bench => 5

/-- WDN_STAT. -/
def wdnStatWord (s : State) : Word := fld s.wdn.wake.toNat 8 ||| fld s.wdn.cause.toNat 0

/-- WDN_BOOT. -/
def wdnBootWord (s : State) : Word := fld s.wdn.image.toNat 16 ||| fld (min s.wdn.tries 255) 8 ||| fld s.wdn.bootCode.toNat 0

/-- WDN_CAL. -/
def wdnCalWord (s : State) : Word := s.wdn.cal.zeroExtend 32

/-- The Warden's SMBus address. -/
def smbAddress (s : State) : Nat := 0x60 + s.wdn.smbNode.toNat

/-- One bit of the CRC-8 of SMBus: x⁸ + x² + x + 1, high bit first. -/
def pecBit (c : Byte) : Byte := if c.getLsbD 7 then (c <<< 1) ^^^ 7 else c <<< 1

/-- The PEC of the bytes of a message: that of SMBus 3.1, which the manual names and does not repeat (PRESUMED, log
140). -/
def pec (l : List Byte) : Byte :=
  l.foldl (fun c b => pecBit (pecBit (pecBit (pecBit (pecBit (pecBit (pecBit (pecBit (c ^^^ b))))))))) 0

/-- The bytes that begin every message of a command: the address with the write bit, and the command code. -/
def smbHead (s : State) (cmd : Byte) : List Byte := [BitVec.ofNat 8 (2 * smbAddress s), cmd]

/-- A read of a command is answered, in every mode but OFF: `l`, which went over the bus as `bytes`, and then the PEC
of the whole message (R546). -/
def smbAnswer (s : State) (cmd : Byte) (l : List Nat) (bytes : List Byte) : State :=
  if s.mode = .off then s
  else answerWith s (l ++ [(pec (smbHead s cmd ++ BitVec.ofNat 8 (2 * smbAddress s + 1) :: bytes)).toNat])

/-- A read byte command. -/
def smbByte (s : State) (cmd : Byte) (n : Nat) : State := smbAnswer s cmd [n] [byteOf n 0]

/-- A read word command, low byte first. -/
def smbWord (s : State) (cmd : Byte) (n : Nat) : State := smbAnswer s cmd [n] (bytesOf n 2)

/-- A block read command, with its count. -/
def smbBlock (s : State) (cmd : Byte) (l : List Byte) : State :=
  smbAnswer s cmd (l.map (·.toNat)) (BitVec.ofNat 8 l.length :: l)

/-- A write of a command is taken, in every mode but OFF: where the master sends PEC it must be right (R546). -/
def smbTaken (s : State) (cmd : Byte) (bytes : List Byte) (sent : Option Byte) (act : State → State) : State :=
  if s.mode = .off then s
  else match sent with
    | some p => if p = pec (smbHead s cmd ++ bytes) then act s else s
    | none => act s

/-- SMB_MODE. -/
def execSmbMode (s : State) : Result :=
  let b (x : Bool) (k : Nat) : Nat := if x then 2 ^ k else 0
  .next (smbByte s 0x01 (s.mode.code + b s.wdn.healthy 3 + b s.wdn.held 4 + b s.wdn.expired 5))

/-- SMB_WARDEN_STATUS. -/
def execSmbWardenStatus (s : State) : Result := .next (smbWord s 0x02 ((wdnStatWord s).toNat % 65536))

/-- SMB_WAKE (R533). -/
def execSmbWake (s : State) : Result := .next (if wakeCfg s 1 then startWake s 2 else s)

/-- SMB_SLEEP (R532, R536). -/
def execSmbSleep (s : State) : Result := .next (if wakeCfg s 1 ∧ powered s then orderSleep s 1 else s)

/-- SMB_RESTART (R532, R536). -/
def execSmbRestart (s : State) : Result := .next (if wakeCfg s 1 ∧ powered s then orderRestart s else s)

/-- SMB_VIN. -/
def execSmbVin (mv : BitVec 16) (s : State) : Result :=
  .next (if s.mode = .off then s else smbWord (readVin s mv) 0x10 mv.toNat)

/-- SMB_TEMP_JUNCTION: 0x8000 while the HX1 is unpowered. -/
def execSmbTempJunction (t : BitVec 16) (s : State) : Result :=
  .next (if s.mode = .off then s
  else if s.hx1 = false then smbWord s 0x11 0x8000
  else smbWord (updWdn s fun w => { w with tempJ := t }) 0x11 t.toNat)

/-- The Warden's own sensor is read; above 95 °C it blocks the wakes after a thermal shutdown (R544). -/
def readWarden (s : State) (t : BitVec 16) : State :=
  updWdn s fun w => { w with tempW := t, wardenHot := w.thermal.isSome && decide (1520 < t.toInt) }

/-- SMB_TEMP_WARDEN. -/
def execSmbTempWarden (t : BitVec 16) (s : State) : Result :=
  .next (if s.mode = .off then s else smbWord (readWarden s t) 0x12 t.toNat)

/-- SMB_POWER. -/
def execSmbPower (dw : BitVec 16) (s : State) : Result :=
  .next (if s.mode = .off then s else smbWord (updWdn s fun w => { w with power := dw }) 0x13 dw.toNat)

/-- SMB_TAG_PTR: 16 and above are refused. -/
def execSmbTagPtr (v : WithPec Byte) (s : State) : Result :=
  .next (smbTaken s 0x20 [v.val] v.pec fun s =>
    if 16 ≤ v.val.toNat then s else updWdn s fun w => { w with tagPtr := v.val.toNat })

/-- SMB_TAG_READ: 32 bytes, and TAG_PTR advances. -/
def execSmbTagRead (s : State) : Result :=
  .next (if s.mode = .off then s
  else
    let a := 32 * s.wdn.tagPtr
    let s := smbBlock s 0x21 ((rangeFrom a 32).map (tagByte s))
    updWdn s fun w => { w with tagPtr := (w.tagPtr + 1) % 16 })

/-- SMB_TAG_WRITE: a count other than 32 is refused. -/
def execSmbTagWrite (bytes : WithPec (List Byte)) (s : State) : Result :=
  let bs := bytes.val
  .next (smbTaken s 0x22 (BitVec.ofNat 8 bs.length :: bs) bytes.pec fun s =>
    if bs.length ≠ 32 then s else writeTags s true (32 * s.wdn.tagPtr) bs)

/-- SMB_BOOT_STATUS. -/
def execSmbBootStatus (s : State) : Result :=
  .next (smbBlock s 0x30 (bytesOf (wdnBootWord s).toNat 4 ++ bytesOf (wdnCalWord s).toNat 4))

/-- SMB_IDENT: part number, serial number and stepping. -/
def execSmbIdent (s : State) : Result := .next (smbBlock s 0x31 ((identityPage s).take 27))

/-- SMB_ALERT_MASK. -/
def execSmbAlertMask (write : Option (WithPec Byte)) (s : State) : Result :=
  .next <| match write with
    | some v => smbTaken s 0x40 [v.val] v.pec fun s => updWdn s fun w => { w with alertMask := v.val }
    | none => smbByte s 0x40 s.wdn.alertMask.toNat

/-- SMB_ALERT_STATUS: the read clears it. -/
def execSmbAlertStatus (s : State) : Result :=
  .next (if s.mode = .off then s else updWdn (smbByte s 0x41 s.wdn.alert.toNat) fun w => { w with alert := 0 })

/-- SMB_ALERT_N is asserted. -/
def alertLow (s : State) : Bool := decide (s.wdn.alert &&& s.wdn.alertMask ≠ 0)

/-- SMB_ALERT_RESPONSE: the Warden answers with its own address while it asserts SMB_ALERT_N; the message is a read
from the Alert Response Address, 0x0C, with no command code. -/
def execSmbAlertResponse (s : State) : Result :=
  .next (if alertLow s ∧ s.mode ≠ .off then
    answerWith s [smbAddress s, (pec [0x19, BitVec.ofNat 8 (2 * smbAddress s)]).toNat]
  else s)

/-- SMB_CLK_TIMEOUT (R587): the interface is reset and both lines released; no answer stands. -/
def execSmbClkTimeout (s : State) : Result := .next (if s.mode = .off then s else answerWith s [])

end Sys2Proof.Machine
end

