-- ==== Sys2Proof/Machine/Endpoint.lean ====
section
/-!
DEFINITION. The PCIe endpoint's resets: PERST_N, the data link, Function Level Reset and the loss of REFCLK (R20,
R266, R300, R545, R557, R586).
-/
namespace Sys2Proof.Machine

/-! ## The configuration header (09, The PCIe endpoint) -/

/-- Vendor ID, Liaris. -/
def vendorId : BitVec 16 := 0x1F5A
/-- Device ID. -/
def deviceId : BitVec 16 := 0x1024
/-- Revision ID: the stepping, 0x00 for A. -/
def revisionId : BitVec 8 := 0x00
/-- Class code: processing accelerator. -/
def classCode : BitVec 24 := 0x120000

/-- The AER errors that the module reports (R271). -/
inductive AerError where
  | uncorrectableInternal
  | completerAbort
  | unsupportedRequest
  | poisonedTlp
  | completionTimeout
  deriving DecidableEq, Repr

/-- An error's severity is fatal (R271). PRESUMED (log 175): the PCIe specification's default severities make the
other four non-fatal. -/
def AerError.fatal (e : AerError) : Bool := decide (e = .uncorrectableInternal)

/-- The errors that the function's AER status shows (R271). -/
def aerStatus (q : QueState) : List AerError :=
  [(.uncorrectableInternal, q.aerInternal), (.completerAbort, q.aerAbort), (.unsupportedRequest, q.aerUnsupported),
   (.poisonedTlp, q.aerPoisoned), (.completionTimeout, q.aerTimeout)].filterMap fun (e, on) => if on then some e else none

/-! ## Resets -/

/-- A pair of a host client. -/
def Pair.ofHost (p : Pair) : Bool := decide (p.ctype = 0) || decide (p.ctype = 1)

/-- The completions that D3hot kept for a drained pair are discarded. -/
def dropKept (p : Pair) : Pair :=
  { p with disp := p.disp.filter fun d => match d.work with | .kept _ _ _ => false | _ => true }

/-- Every HOST and PASID pair drains, with no event; a held module drains none (R300). -/
def drainHosts (s : State) : State :=
  if s.wdn.held then s
  else
    let s := drainPairs s false Pair.ofHost
    let s := updQue s fun q =>
      { q with pairs := q.pairs.map fun p => if p.1 ≠ 0 ∧ p.2.ofHost then (p.1, dropKept p.2) else p }
    setPair s 0 { Pair.none with taken := (pairOf s 0).taken }

/-- The QUE_ADM_* registers return to reset. -/
def admReset (s : State) : State :=
  [Reg.queAdmSqbLo, Reg.queAdmSqbHi, Reg.queAdmCqbLo, Reg.queAdmCqbHi, Reg.queAdmSize, Reg.queAdmVec,
    Reg.queAdmCstat].foldl
    (fun s r => setReg s r 0) s

/-- The host-facing state returns to reset: configuration space, MSI-X, QUE_CTL, QUE_ADM_*, pair 0 and the pairs
of host clients (R20, R300); a BAR0 debug session ends (R557). -/
def hostReset (s : State) : State :=
  let s := admReset (setReg (drainHosts (endBar0Session s)) Reg.queCtl 2)
  updQue s fun q =>
    { q with msix := [], funcMask := false, pasidEn := false, d3 := false, aerInternal := false,
             aerAbort := false, aerUnsupported := false, aerPoisoned := false, aerTimeout := false,
             masterAbort := false, targetAbort := false, kept := [],
             link := { LinkConfig.reset with rate := q.link.rate, width := q.link.width, flit := q.link.flit } }

/-- The data link is down. -/
def linkDown (s : State) : State :=
  updQue (hostReset s) fun q => { q with linkUp := false, link := LinkConfig.reset }

/-- PERST_N_ASSERT (R20, R300): PERST_N has been low for 1 µs and is taken as asserted; a shorter pulse is no command
(R586, log 154). -/
def execPerstNAssert (s : State) : Result :=
  .next (let s := updQue s fun q => { q with perst := true }
    if s.hx1 then linkDown s else s)

/-- PERST_N_RISE (R533, R586): in STANDBY the edge wakes the module when WAKECFG.PERST is set. -/
def execPerstNRise (s : State) : Result :=
  .next (if s.que.perst = false then s
  else
    let s := updQue s fun q => { q with perst := false }
    if wakeCfg s 2 then startWake s 3 else s)

/-- DL_DOWN (R300). -/
def execDlDown (s : State) : Result := .next (if s.hx1 ∧ s.que.linkUp then linkDown s else s)

/-- DL_UP (R266): the link has trained to the highest rate, width and mode that both partners support, and the
host's configuration tells whether it has enabled PASID and set the function mask, and its other settings. Vectors
that waited under the function mask send their messages (R303). -/
def execDlUp (pasidEn funcMask : Bool) (link : LinkConfig) (s : State) : Result :=
  .next (if s.hx1 ∧ s.que.perst = false then
    sendPending (updQue s fun q =>
      { q with linkUp := true, pasidEn := pasidEn, funcMask := funcMask, link := link })
  else s)

/-- FUNCTION_LEVEL_RESET (R300). -/
def execFunctionLevelReset (s : State) : Result := .next (if s.hx1 then hostReset s else s)

/-- REFCLK_LOST (R545): the link goes down and the monitor reports it. -/
def execRefclkLost (reading : Word) (s : State) : Result :=
  .next (if s.hx1 then monitor (linkDown s) 11 reading else s)

end Sys2Proof.Machine
end

