-- ==== Sys2Proof/Machine/Memory.lean ====
section
/-!
DEFINITION. Commands of the banks, module DRAM and the on-chip network: write-backs, the patrol scrubber, refresh,
routes, isolation and statistics (12).
-/
namespace Sys2Proof.Machine

/-! ## ECC (R390, R399, R402, R403) -/

/-- A corrected word is written back, unless it has been written since. -/
def writeBackWord (s : State) (w : Nat) : State := if s.hx1 ∧ w ∈ s.mem.wb then freshWord s w else s

/-- BANK_ECC_WRITEBACK (R390). -/
def execBankEccWriteback (bank : BitVec 2) (word : BitVec 20) (s : State) : Result :=
  .next (writeBackWord s (bankAddr bank.toNat (8 * word.toNat) / 8))

/-- DRAM_ECC_WRITEBACK (R399). -/
def execDramEccWriteback (word : BitVec 34) (s : State) : Result := .next (writeBackWord s word.toNat)

/-- PATROL_SCRUB (R403): the scrubber reads the next block of 64 bytes. -/
def execPatrolScrub (s : State) : Result :=
  .next (if s.hx1 ∧ getFlag s Reg.drcScrub 31 ∧ getFlag s Reg.drcStat 1 then
    let k := (reg s Reg.drcScrubPos).toNat
    let s := (rangeFrom (8 * k) 8).foldl (fun s w => readWord s true w) (snoop s (64 * k) 64)
    setReg s Reg.drcScrubPos (BitVec.ofNat 32 ((k + 1) % (dramSize / 64)))
  else s)

/-- DRAM_DERATE (R402): the reading of the hottest device, in °C. -/
def execDramDerate (degC : BitVec 8) (s : State) : Result :=
  .next (if s.hx1 = false then s
  else
    let s := setReg s Reg.drcTemp (degC.zeroExtend 32)
    if 85 < degC.toInt then setField s Reg.drcStat 2 2 1
    else if degC.toInt < 80 then setField s Reg.drcStat 2 2 0
    else s)

/-! ## Routes (R411–R413) -/

/-- The NI at a stop and spur. -/
def niAt (stop spur : Nat) : Option Nat := (List.range 16).find? fun n => decide (niStop n = (stop, spur))

/-- Port code k of a route entry. -/
def routeCode (w : Word) (k : Nat) : Nat := (bits w 23 0 >>> (3 * k)) % 8

/-- The stop after some ring codes. -/
def tracedStop (w : Word) (stop : Nat) : Nat → Nat
  | 0 => stop
  | k + 1 =>
    let at_ := tracedStop w stop k
    if routeCode w k = 0 then (at_ + 1) % 11 else (at_ + 10) % 11

/-- The NI at which a route ends, when its codes are such that it ends at one. -/
def routeEnd (src : Nat) (w : Word) : Option Nat :=
  let hops := bits w 27 24
  let last := routeCode w (hops - 1)
  if (List.range (hops - 1)).all (fun k => decide (routeCode w k < 2)) ∧ 2 ≤ last ∧ last ≤ 5 then
    niAt (tracedStop w (niStop src).1 (hops - 1)) (last - 2)
  else none

/-- The code of NOC_RT_CSTAT for a staged entry (R413). -/
def routeRefusal (src dst : Nat) (w : Word) : Nat :=
  let hops := bits w 27 24
  let ring := (List.range (hops - 1)).map (routeCode w)
  if 16 ≤ src ∨ 16 ≤ dst ∨ niInitiates src = false then 1
  else if bit w 31 = false then 0
  else if hops = 0 ∨ 8 < hops then 2
  else if (routeEnd src w).isNone then 3
  else if 0 ∈ ring ∧ 1 ∈ ring then 4
  else if routeEnd src w ≠ some dst then 5
  else 0

/-- NOC_RT_COMMIT (R413). -/
def execNocRtCommit (wr : Writer) (s : State) : Result :=
  let src := getField s Reg.nocRtsel 13 8
  let dst := getField s Reg.nocRtsel 5 0
  let w := reg s Reg.nocRtdata
  let code := routeRefusal src dst w
  .next (onWrite s wr Reg.nocRtCommit fun s =>
    let s := setReg s Reg.nocRtCstat (fld code 0)
    if code ≠ 0 then s
    else { s with mem := { s.mem with routes := storePut none s.mem.routes (src * 64 + dst) (some w) } })

/-! ## Isolation and statistics (R419, R423) -/

/-- NOC_ISOCMD (R419): the NI stays isolated until LOAD. -/
def execNocIsocmd (wr : Writer) (val : Word) (s : State) : Result :=
  let n := bits val 5 0
  .next (onWrite s wr Reg.nocIsocmd fun s => if 16 ≤ n then noteReserved s wr Reg.nocIsocmd
  else setFlag s Reg.nocIsoLo n)

/-- NOC_STCLR (R423). -/
def execNocStclr (wr : Writer) (_val : Word) (s : State) : Result :=
  .next (onWrite s wr Reg.nocStclr fun s =>
    { s with mem := { s.mem with stats := storePut NiStat.none s.mem.stats (getField s Reg.nocStsel 5 0) NiStat.none } })

end Sys2Proof.Machine
end

