-- ==== Sys2Proof/Machine/RegRead.lean ====
section
/-!
DEFINITION. What a register shows: the stored fields with the read-only fields that follow the state, and what a
read changes (R3, R245, R372, R407, R423, R566; the register tables of chapters 01 to 17).
-/
namespace Sys2Proof.Machine

/-! ## GLB and HLM (01, 03, 06) -/

/-- GLB registers. -/
def glbValue (s : State) (off : Nat) : Word :=
  match off with
  | 0x00 => 0x2D4D5848
  | 0x04 => 0x34323031
  | 0x08 => 0x41
  | 0x10 => Config.serial 0
  | 0x14 => Config.serial 1
  | 0x18 => Config.serial 2 &&& 0xFFFF
  | 0x1C => 0x4100
  | _ => reg s off

/-- HLM_STAT.STATE. -/
def helmStateCode (s : State) : Nat :=
  if s.mode = .load then 7
  else if s.helm.held then 6
  else if helmHalted s then 4
  else match s.helm.run with
    | none => if getFlag s Reg.hlmPatch 1 then 5 else 0
    | some k =>
      if s.helm.landing then 2
      else if k.req.urgent ∧ s.helm.preempted.isSome then 3
      else 1

/-- HLM_STAT. -/
def hlmStatWord (s : State) : Word :=
  reg s Reg.hlmStat ||| fld (helmStateCode s) 28 ||| flg s.helm.preempted.isSome 2 |||
    flg (s.helm.run.any fun k => k.req.urgent) 1 ||| flg s.helm.run.isSome 0

/-- HLM_KCUR. -/
def hlmKcurWord (s : State) : Word :=
  match s.helm.run with
  | some k => fld k.req.kid.toNat 16 ||| fld k.upc.toNat 0
  | none => 0

/-- HLM_FPEV0 to HLM_FPEV3. -/
def fpevWord (s : State) (n : Nat) : Word :=
  match s.helm.fpq with
  | [] => 0
  | e :: _ =>
    match n with
    | 0 => fld e.kid.toNat 16 ||| flg true 15 ||| flg e.atEnd 14 ||| fld e.flags.toNat 0
    | 1 => fld e.lc0.toNat 16 ||| fld e.upc.toNat 0
    | 2 => BitVec.ofNat 32 e.sail.toNat
    | _ => BitVec.ofNat 32 (e.sail.toNat >>> 32)

/-- HLM registers. -/
def hlmValue (s : State) (off : Nat) : Word :=
  if off = Reg.hlmStat then hlmStatWord s
  else if off = Reg.hlmKq then fld s.helm.nq.length 16 ||| fld s.helm.uq.length 0
  else if off = Reg.hlmKcur then hlmKcurWord s
  else if off = Reg.hlmGor then flg (s.helm.run.any fun k => k.gor) 0
  else if Reg.hlmFpev ≤ off ∧ off < Reg.hlmFpevCtl then fpevWord s ((off - Reg.hlmFpev) / 4)
  else if off = Reg.hlmFpevCtl then reg s off ||| fld s.helm.fpq.length 0
  else reg s off

/-! ## LDR and TTB (07, 08) -/

/-- LDR registers. BUSY covers a checkpoint and a restore, which R225 calls transfers too (DEDUCED, log 196). -/
def ldrValue (s : State) (off : Nat) : Word :=
  if off = Reg.ldrStat then
    reg s off ||| fld s.ldr.queue.length 16 ||| flg (slotsWait s) 1 |||
      flg (s.ldr.run.isSome || s.ldr.ckpt.isSome || s.ldr.restore.isSome) 0
  else if off = Reg.ldrKib then BitVec.ofNat 32 (s.ldr.bytes / 1024)
  else reg s off

/-- TTB_STAT. -/
def ttbStatWord (s : State) : Word :=
  fld s.ttb.active.toNat 28 ||| flg s.ttb.pend.isSome 27 |||
    fld (match s.ttb.pend with | some w => w.slot.toNat | none => 0) 23 ||| fld (phaseCode s) 20 |||
    fld s.ttb.srcUsed.toNat 18 ||| flg s.ttb.srcLost 17 ||| fld s.ttb.flags.toNat 0

/-- TTB_SLOTS. -/
def ttbSlotsWord (s : State) : Word := (List.range 16).foldl (fun w n => w ||| flg (slotOf s n).isSome n) 0

/-- TTB_NTF0 to TTB_NTF10: the head record. -/
def ntfWord (s : State) (n : Nat) : Word :=
  match s.ttb.ntf with
  | [] => 0
  | r :: _ =>
    match n with
    | 0 => fld r.tag.toNat 16 ||| flg true 15 ||| fld r.idx 0
    | 9 => BitVec.ofNat 32 r.sail.toNat
    | 10 => fld (min r.pass 3) 16 ||| fld (r.sail.toNat >>> 32) 0
    | n => BitVec.ofNat 32 (blkField r.body (4 * (n - 1)) 4)

/-- TTB_ESTATn. -/
def estatWord (s : State) (n : Nat) : Word :=
  match s.ttb.est[n]? with
  | none => fld 6 0
  | some e =>
    let tag := match entryAt s n with | some x => x.tag.toNat | none => 0
    fld tag 16 ||| fld e.ustat.toNat 8 ||| flg e.late 4 ||| fld e.state.code 0

/-- TTB registers. Before the first tick every TTB_ESTATn reads 0 (R265). -/
def ttbValue (s : State) (off : Nat) : Word :=
  if off = Reg.ttbStat then ttbStatWord s
  else if off = Reg.ttbSailLo then BitVec.ofNat 32 s.ttb.sail.toNat
  else if off = Reg.ttbSlots then ttbSlotsWord s
  else if Reg.ttbNtf ≤ off ∧ off < Reg.ttbNtfPop then ntfWord s ((off - Reg.ttbNtf) / 4)
  else if off = Reg.ttbNtfCtl then fld s.ttb.ntf.length 0
  else if Reg.ttbEstat ≤ off ∧ off < Reg.ttbEstat + 0x400 then
    (if s.ttb.ticked then estatWord s ((off - Reg.ttbEstat) / 4) else 0)
  else reg s off

/-! ## QUE (09) -/

/-- QUE_QPINFO0 to QUE_QPINFO3 of the selected pair. -/
def qpInfoWord (s : State) (n : Nat) : Word :=
  let p := pairOf s (getField s Reg.queQpsel 15 0)
  match n with
  | 0 => qpInfo0 p
  | 1 => fld p.sqTail 16 ||| fld p.sqHead 0
  | 2 => fld p.cqHead 16 ||| fld p.cqTail 0
  | _ => flg p.noirq 31 ||| fld p.vector.toNat 16 ||| fld (heldCount p) 0

/-- QUE_MB_SRC. -/
def mbSrcWord (s : State) : Word :=
  match s.que.mail with
  | [] => 0
  | m :: _ => fld m.id.toNat 16 ||| flg m.remote 1 ||| flg true 0

/-- MSI-X table and pending bits: entry e has its address, data and vector control words (R267). -/
def msixTable : Nat := 0x480000
def msixPba : Nat := 0x488000

/-- A word of the MSI-X table. -/
def msixWord (s : State) (off : Nat) : Word :=
  let e := msixOf s ((off - msixTable) / 16)
  match off % 16 with
  | 0 => BitVec.ofNat 32 e.addr.toNat
  | 4 => BitVec.ofNat 32 (e.addr.toNat >>> 32)
  | 8 => e.data
  | _ => flg e.masked 0

/-- A word of the pending-bit array. -/
def pbaWord (s : State) (off : Nat) : Word :=
  (List.range 32).foldl (fun w k => w ||| flg (msixOf s ((off - msixPba) * 8 + k)).pending k) 0

/-- QUE registers. -/
def queValue (s : State) (off : Nat) : Word :=
  if off = Reg.queStat then
    fld (freePairs s) 16 ||| flg s.que.d3 3 ||| flg s.que.pasidEn 2 ||| flg s.que.linkUp 1 ||| flg (runs s) 0
  else if Reg.queQpinfo ≤ off ∧ off < Reg.queQpinfo + 0x10 then qpInfoWord s ((off - Reg.queQpinfo) / 4)
  else if Reg.queMb ≤ off ∧ off < Reg.queMbSrc then
    (match s.que.mail with | [] => 0 | m :: _ => BitVec.ofNat 32 (rawField m.raw (off - Reg.queMb) 4))
  else if off = Reg.queMbSrc then mbSrcWord s
  else if off = Reg.queMbFill then fld s.que.mail.length 0
  else if msixTable ≤ off ∧ off < msixTable + 0x8000 then msixWord s off
  else if msixPba ≤ off ∧ off < msixPba + 0x100 then pbaWord s off
  else reg s off

/-! ## PLT (11) -/

/-- PLT registers below the debug window. -/
def pltValue (s : State) (off : Nat) : Word :=
  if off = Reg.pltStat then
    flg s.plt.survivor 9 ||| flg s.plt.solo 8 ||| flg s.plt.halted 3 ||| flg s.plt.idle 2 ||| fld s.plt.pl.toNat 0
  else if off = Reg.pltIrqPend then linesWord s
  else if off = Reg.pltIrqEn then reg s off ||| flg s.plt.wdogEn 9
  else if off = Reg.pltWdogCtl then flg s.plt.wdogStage 1 ||| flg s.plt.wdogEn 0
  else if off = Reg.pltWdogCnt then BitVec.ofNat 32 (wdogLeft s)
  else reg s off

/-! ## DBG and GW (17) -/

/-- DBG_AUTH_STAT. -/
def authStatWord (s : State) : Word :=
  let sess : Word := match s.dbg.session with
    | some (l, p) => fld l.toNat 10 ||| fld (pathCode p) 9
    | none => 0
  sess ||| flg s.dbg.lockEnd.isSome 8 ||| fld s.dbg.fails 6 ||| fld s.dbg.code.toNat 0

/-- GW_STAT. -/
def gwStatWord (s : State) : Word := reg s Reg.gwStat ||| flg s.dbg.gwRxFull 1 ||| flg s.dbg.gwTxFull 0

/-- Gangway registers. -/
def gwValue (s : State) (off : Nat) : Word :=
  if off = Reg.gwTx then s.dbg.gwTx
  else if off = Reg.gwRx then s.dbg.gwRx
  else if off = Reg.gwStat then gwStatWord s
  else 0

/-- Registers that a debugger without a session may read (R553). -/
def authValue (s : State) (off : Nat) : Word :=
  if Reg.dbgChal ≤ off ∧ off < Reg.dbgResp then BitVec.ofNat 32 (s.dbg.shown.toNat >>> (8 * (off - Reg.dbgChal)))
  else if off = Reg.dbgAuthStat then authStatWord s
  else 0

/-! ## BNK, NOC, DRC (12) -/

/-- The spare slots of a repair word that are in use. -/
def sparesUsed (w : Word) : Nat := ([7, 15, 23, 31].filter fun k => bit w k).length

/-- BNK_RSUMn. -/
def bankSumWord (n : Nat) : Word :=
  let l := (List.range 64).map fun k => sparesUsed (Config.bankRepair n k)
  fld (l.foldl (· + ·) 0) 16 ||| fld (l.filter fun k => decide (k = 4)).length 0

/-- BNK registers. -/
def bnkValue (s : State) (off : Nat) : Word :=
  if Reg.bnkRsum ≤ off ∧ off < Reg.bnkRsel then bankSumWord ((off - Reg.bnkRsum) / 4)
  else if off = Reg.bnkRdata then Config.bankRepair (getField s Reg.bnkRsel 7 6) (getField s Reg.bnkRsel 5 0)
  else reg s off

/-- NOC registers. -/
def nocValue (s : State) (off : Nat) : Word :=
  let st := storeGet NiStat.none s.mem.stats (getField s Reg.nocStsel 5 0)
  if off = Reg.nocRtcur then routeOf s (getField s Reg.nocRtsel 13 8) (getField s Reg.nocRtsel 5 0)
  else if off = Reg.nocStreq then BitVec.ofNat 32 st.req
  else if off = Reg.nocStbyteLo then BitVec.ofNat 32 st.bytes
  else if Reg.nocHist ≤ off ∧ off < Reg.nocStclr then BitVec.ofNat 32 (st.hist.getD ((off - Reg.nocHist) / 4) 0)
  else reg s off

/-- DRC registers. -/
def drcValue (s : State) (off : Nat) : Word :=
  if off = Reg.drcStat then reg s off ||| flg (getFlag s Reg.drcScrub 31 && getFlag s off 1) 3 else reg s off

/-! ## FRY (13) -/

/-- FRY_PSTAT.STATE codes. -/
def PortPhase.code (p : PortPhase) : Nat :=
  match p with
  | .disabled => 0 | .idle => 1 | .training => 2 | .up => 3 | .miswired => 4 | .failed => 5 | .sleep => 6

/-- FRY_STAT. -/
def fryStatWord (s : State) : Word :=
  let up := ([0, 1, 2, 3] : List (BitVec 2)).foldl
    (fun w n => w ||| flg (decide ((portAt s n).phase = .up)) (28 + n.toNat)) (0 : Word)
  up ||| flg (isRoot s) 27 ||| flg s.fry.upPort.isSome 26 |||
    fld (match s.fry.upPort with | some p => p.toNat | none => 0) 24 |||
    flg s.fry.out 23 ||| flg s.fry.rootConf 22 ||| flg s.fry.selfDup 21 ||| flg s.fry.deep 20 ||| flg s.fry.tickLate 19

/-- FRY_INST: no module is known before the first discovery. -/
def fryInstWord (s : State) : Word :=
  fld (if s.fry.discovered then min (s.fry.known.length + 1) 65535 else 0) 15 ||| fld s.fry.upDepth 8 |||
    fld (min (s.fry.known.foldl (fun n k => max n k.hops) 0) 255) 0

/-- FRY_PSTATn. -/
def pstatWord (p : PortState) : Word :=
  fld p.phase.code 28 ||| fld p.rate.toNat 26 ||| flg p.reversed 25 ||| fld p.reason.toNat 16 ||| fld p.farNode.toNat 0

/-- FRY registers. -/
def fryValue (s : State) (off : Nat) : Word :=
  if off = Reg.fryStat then fryStatWord s
  else if off = Reg.fryNode then fld s.wdn.straps.node.toNat 16 ||| fld s.fry.node.toNat 0
  else if off = Reg.fryInst then fryInstWord s
  else if off = Reg.fryMepoch then fld s.fry.mepoch.toNat 0
  else if off = Reg.fryMbumpHi then reg s off ||| flg s.fry.armed 31
  else if off = Reg.frySailofsLo then BitVec.ofNat 32 s.fry.sailofs.toNat
  else if off = Reg.frySailofsHi then BitVec.ofNat 32 (s.fry.sailofs.toNat >>> 32)
  else if Reg.fryPctl ≤ off ∧ off < Reg.fryPctl + 0x80 then
    let p := portAt s (BitVec.ofNat 2 ((off - Reg.fryPctl) / 0x20))
    (match (off - Reg.fryPctl) % 0x20 with
    | 4 => pstatWord p
    | 8 => fld p.lat.toNat 0
    | _ => reg s off)
  else reg s off

/-! ## FAB (14) -/

/-- FAB_RSTAT.STATE codes. -/
def RegionPhase.code (p : RegionPhase) : Nat :=
  match p with
  | .empty => 0 | .loading => 1 | .ready => 2 | .running => 3

/-- FAB_CAMSTAT.STATE codes. -/
def CamPhase.code (p : CamPhase) : Nat :=
  match p with
  | .off => 0 | .lp => 1 | .hs => 2 | .ulps => 3

/-- FAB_QSTATn (R470, R471). -/
def qstatWord (s : State) (n : Nat) : Word :=
  let b := blockQ s n
  let fill := b.words.length + b.partialDesc.length
  let thr := storeGet 0 s.fab.qthr n
  reg s (Reg.fabQstat + 0x20 * n) ||| fld (min fill 0xFFFF) 16 ||| flg b.pair.isSome 4 |||
    flg (decide (bits thr 31 16 ≠ 0) && decide (bits thr 31 16 ≤ fill)) 3 ||| flg (decide (fill ≤ bits thr 15 0)) 2 |||
    flg (decide (0 < fill) && decide (blockDepth (qcfgOf s n) ≤ fill)) 1 ||| flg (decide (fill = 0)) 0

/-- The registers of block n. -/
def blockValue (s : State) (off n : Nat) : Word :=
  let b := blockQ s n
  match (off - Reg.fabQcfg) % 0x20 with
  | 8 => qstatWord s n
  | 0xC => if blockMode s n = 2 then (match b.words with | [] => 0 | w :: _ => BitVec.ofNat 32 w.1.toNat) else 0
  | 0x18 => (match b.pair with | some q => flg true 31 ||| fld q.toNat 0 | none => 0)
  | _ => reg s off

/-- FAB registers. -/
def fabValue (s : State) (off : Nat) : Word :=
  if off = Reg.fabStat then
    flg s.fab.engine.isSome 9 ||| flg s.fab.asleep 8 |||
      (List.range 8).foldl (fun w r => w ||| flg (regionRuns s r) r) (0 : Word)
  else if Reg.fabRstat ≤ off ∧ off < Reg.fabRcrc then
    let r := (off - Reg.fabRstat) / 4
    let x := regionOf s r
    fld x.phase.code 30 ||| flg (regionFree s r) 29 ||| fld x.frames.length 0
  else if Reg.fabCamstat ≤ off ∧ off < Reg.fabCamstat + 0x10 then
    let c := camAt s (BitVec.ofNat 2 ((off - Reg.fabCamstat) / 4))
    reg s off ||| fld c.phase.code 30 ||| flg c.deskewed 29
  else if Reg.fabQcfg ≤ off ∧ off < Reg.fabQcommit then blockValue s off ((off - Reg.fabQcfg) / 0x20)
  else reg s off

/-! ## FLT, PWR, WDN (15, 16) -/

/-- FLT_STAT. -/
def fltStatWord (s : State) : Word :=
  let deg : Bool := decide (s.mode = .degraded)
  reg s Reg.fltStat ||| flg s.wdn.held 11 ||| flg s.plt.solo 10 |||
    flg (deg && decide (reg s Reg.fltLost ≠ 0)) 9 ||| flg (deg && decide (s.wdn.cap < s.wdn.aclkReq)) 8 |||
    flg s.flt.repair.isSome 3 ||| flg (bistBusy s) 2 ||| flg s.wdn.expired 1 ||| flg s.wdn.healthy 0

/-- FLT_CNT of the selected instance. -/
def fltCntWord (s : State) : Word :=
  let src := getField s Reg.fltCntsel 23 16
  let h := histOf s src (getField s Reg.fltCntsel 8 0)
  fld h.total 16 ||| flg h.lasting 15 ||| fld (min 15 (inWindow h (eventSail s) (bits (fltSrcOf s src) 10 0))) 0

/-- FLT_LOG0 to FLT_LOG3: the head entry. -/
def logWord (s : State) (n : Nat) : Word :=
  match s.flt.log with
  | [] => 0
  | e :: _ =>
    match n with
    | 0 => flg true 31 ||| fld e.kind.toNat 27 ||| fld e.src.toNat 16 ||| fld e.inst.toNat 0
    | 1 => e.detail
    | 2 => BitVec.ofNat 32 e.sail.toNat
    | _ => BitVec.ofNat 32 (e.sail.toNat >>> 32)

/-- FLT registers. -/
def fltValue (s : State) (off : Nat) : Word :=
  if off = Reg.fltStat then fltStatWord s
  else if off = Reg.fltCnt then fltCntWord s
  else if off = Reg.fltWdn then reg s off ||| fld (min s.wdn.unmarked 15) 4 ||| flg s.wdn.swdAt.isSome 0
  else if Reg.fltLog ≤ off ∧ off < Reg.fltLogPop then logWord s ((off - Reg.fltLog) / 4)
  else if off = Reg.fltLogCtl then reg s off ||| fld s.flt.log.length 0
  else reg s off

/-- PWR and WDN registers. -/
def pwrValue (s : State) (off : Nat) : Word :=
  if off = Reg.pwrStat then
    fld s.mode.code 29 ||| flg (!s.wdn.orders.isEmpty || s.wdn.benchFirst) 28 ||| flg (decide (s.wdn.cap < 16)) 27
  else if off = Reg.pwrAclkcur then fld s.wdn.aclkReq 16 ||| fld s.wdn.cap 8 ||| fld s.wdn.aclkEff 0
  else if off = Reg.pwrVin then fld s.wdn.vinMin.toNat 16 ||| fld s.wdn.vin.toNat 0
  else if off = Reg.pwrTemp then fld s.wdn.tempJ.toNat 16 ||| fld s.wdn.tempW.toNat 0
  else if off = Reg.pwrPower then fld s.wdn.power.toNat 0
  else if off = Reg.wdnStat then wdnStatWord s
  else if off = Reg.wdnBoot then wdnBootWord s
  else if off = Reg.wdnCal then wdnCalWord s
  else if off = Reg.wdnTagstat then reg s off ||| flg s.wdn.tagDirty 0
  else if off = Reg.wdnFlStat then fld s.wdn.flashCode.toNat 0
  else if Reg.wdnTag ≤ off ∧ off < Reg.wdnTag + 0x200 then
    BitVec.ofNat 32 (numOf ((rangeFrom (off - Reg.wdnTag) 4).map (tagByte s)))
  else reg s off

/-! ## Reads -/

/-- What a register outside the debug window shows; an offset without a register shows 0 (R407). -/
def regValue (s : State) (off : Nat) : Word :=
  match blockOf off with
  | 0 => glbValue s off
  | 1 => hlmValue s off
  | 2 => ldrValue s off
  | 3 => ttbValue s off
  | 4 => queValue s off
  | 5 => if off < 0x508000 then pltValue s off else 0
  | 6 => bnkValue s off
  | 7 => nocValue s off
  | 8 => fryValue s off
  | 9 => fabValue s off
  | 10 => fltValue s off
  | 11 => pwrValue s off
  | 12 => drcValue s off
  | _ => 0

/-- What a read by the host or a Pilot changes: RC fields clear, the high half of a pair is captured, and a request
that a read ends is ended (R3, R245, R372, R423). -/
def readEffect (s : State) (off : Nat) : State :=
  if off = Reg.ttbSailLo then setReg s Reg.ttbSailHi (BitVec.ofNat 32 (s.ttb.sail.toNat >>> 32))
  else if off = Reg.nocStbyteLo then
    setReg s Reg.nocStbyteHi
      (BitVec.ofNat 32 ((storeGet NiStat.none s.mem.stats (getField s Reg.nocStsel 5 0)).bytes >>> 32))
  else if off = Reg.ttbRec then updPlt s fun p => { p with recReq := false }
  else if off = Reg.ldrLast then updPlt s fun p => { p with ldrReq := false }
  else if off = Reg.pwrVin then updWdn s fun w => { w with vinMin := w.vin }
  else if hasRc off then setReg s off (clearRc (regFields off) (reg s off))
  else s

/-- The blocks that the host may read of a held module: GLB, FLT, PWR and WDN (R300). -/
def readableHeld (off : Nat) : Bool := decide (blockOf off = 0) || decide (blockOf off = 10) || decide (blockOf off = 11)

/-- A host's read. -/
def hostRead (s : State) (off : Nat) : State × Word :=
  if s.hx1 = false ∨ (s.wdn.held ∧ readableHeld off = false) then (s, 0) else (readEffect s off, regValue s off)

/-- Whether an offset is a gangway register. -/
def isGangway (off : Nat) : Bool := decide (off = Reg.gwTx) || decide (off = Reg.gwRx) || decide (off = Reg.gwStat)

/-- A Pilot's read, or one that acts as such: of the debug window it reaches the gangway alone, and reading GW_RX
empties it (R553, R569). -/
def pilotRead (s : State) (off : Nat) : State × Word :=
  if 0x508000 ≤ off ∧ off < 0x510000 then
    (if off = Reg.gwRx then gwRxTake s else s, if isGangway off then gwValue s off else 0)
  else (readEffect s off, regValue s off)

/-- A read through the debug path is quiet: a captured high half is kept for that path alone (R566). -/
def quietRead (s : State) (off : Nat) : State × Word :=
  if off = Reg.ttbSailLo then
    let hi : Word := BitVec.ofNat 32 (s.ttb.sail.toNat >>> 32)
    (updDbg s fun d => { d with quiet := storePut 0 d.quiet Reg.ttbSailHi hi }, regValue s off)
  else if off = Reg.nocStbyteLo then
    let bytes := (storeGet NiStat.none s.mem.stats (getField s Reg.nocStsel 5 0)).bytes
    let hi : Word := BitVec.ofNat 32 (bytes >>> 32)
    (updDbg s fun d => { d with quiet := storePut 0 d.quiet Reg.nocStbyteHi hi }, regValue s off)
  else if off = Reg.ttbSailHi ∨ off = Reg.nocStbyteHi then (s, storeGet 0 s.dbg.quiet off)
  else if isGangway off then (s, gwValue s off)
  else (s, regValue s off)

end Sys2Proof.Machine
end

