-- ==== Sys2Proof/Machine/RegWrite.lean ====
section
/-!
DEFINITION. Writes of registers: the plain fields (R3, R4, R24, R25), the registers whose write is an operation of
its own, and the Pilot watchdog's registers (R379, R385) and gangway (R569).
-/
namespace Sys2Proof.Machine

/-- The state that a command leaves; every meaning answers a next state. -/
def after (r : Result) (s : State) : State :=
  match r with
  | .next t => t
  | _ => s

/-- Two commands in order. -/
def andThen (r : Result) (f : State → Result) (s : State) : State := after (f (after r s)) (after r s)

/-! ## The Pilot watchdog's registers -/

/-- PLT_WDOG_KICK (R379, R385). -/
def execPltWdogKick (wr : Writer) (val : Word) (s : State) : Result :=
  .next (onWrite s wr Reg.pltWdogKick fun s => if bits val 15 0 = 0xA5C3 then wdogReload s else s)

/-- PLT_WDOG_CTL (R378, R379, R385): EN starts the count and is never cleared. -/
def execPltWdogCtlWrite (wr : Writer) (val : Word) (s : State) : Result :=
  .next (onWrite s wr Reg.pltWdogCtl fun s => if bit val 0 ∧ s.plt.wdogEn = false then
    updPlt (wdogReload s) fun p => { p with wdogEn := true } else s)

/-! ## The gangway (R569) -/

/-- What a write of GW_STAT changes apart from TXFULL: TXIE and the overflow flags. -/
def gwStatPut (s : State) (val : Word) : State :=
  setReg s Reg.gwStat (writeFields (regFields Reg.gwStat) val (reg s Reg.gwStat)).1

/-- Firmware's write of the debug window: the gangway alone answers (R553). -/
def gangwayWrite (s : State) (off : Nat) (val : Word) : State :=
  if off = Reg.gwTx then gwTxPut s val else if off = Reg.gwStat then gwStatPut s val else s

/-- A Pilot runs, and its level and the network let its access through to a register. -/
def firmwareMay (s : State) (isWrite : Bool) (off : Nat) : Bool :=
  pilotsRun s && !mmioRefuses s.plt.pl.toNat isWrite off && reachesUnit s .pilot off

/-- GW_RX_READ: firmware reads GW_RX. -/
def execGwRxRead (s : State) : Result :=
  .next (if firmwareMay s false Reg.gwRx then answerWith (gwRxTake s) [s.dbg.gwRx.toNat]
  else refuseAccess s .pilot Reg.gwRx false)

/-- GW_TX_WRITE: firmware writes GW_TX. -/
def execGwTxWrite (val : Word) (s : State) : Result :=
  .next (if firmwareMay s true Reg.gwTx then gwTxPut s val else refuseAccess s .pilot Reg.gwTx true)

/-! ## MSI-X table (R303) -/

/-- Store an address or data word of the table. -/
def msixPut (s : State) (off : Nat) (val : Word) : State :=
  let v := (off - msixTable) / 16
  let e := msixOf s v
  match off % 16 with
  | 0 => setMsix s v { e with addr := BitVec.ofNat 64 (e.addr.toNat / 2 ^ 32 * 2 ^ 32 + val.toNat) }
  | 4 => setMsix s v { e with addr := BitVec.ofNat 64 (val.toNat * 2 ^ 32 + e.addr.toNat % 2 ^ 32) }
  | 8 => setMsix s v { e with data := val }
  | _ => if bit val 0 then setMsix s v { e with masked := true }
         else after (execVectorUnmask (BitVec.ofNat 11 v) s) s

/-! ## Plain registers -/

/-- The fields of a register that a writer may change (R25 and each block's rule). -/
def fieldsFor (wr : Writer) (off : Nat) : List Field :=
  match wr, hostPerm off with
  | .host, .none => []
  | .host, .flags => (regFields off).filter fun f => decide (f.acc = .w1c) || decide (f.acc = .w1cAll)
  | _, _ => regFields off

/-- The level, the isolation and the hold let a write reach the register. -/
def plainMay (s : State) (wr : Writer) (off : Nat) : Bool :=
  s.hx1 && reachesUnit s wr off && match wr with
    | .host => !s.wdn.held
    | .pilot => decide (pilotLevel off ≤ s.plt.pl.toNat) && !pilotIgnored off
    | .debug => decide (2 ≤ debugLevel s) && !s.wdn.held && !pilotIgnored off
    | .fabric => fabricMay s off

/-- What a field's change brings with it: SRC and OFFSET of GLB_ERR clear with RSVD (R24). -/
def withField (off : Nat) (val new : Word) : Word :=
  if off = Reg.glbErr ∧ bit val 31 then new &&& 0xC0000000 else new

/-- A write of a register whose fields are plain (R3, R4). -/
def plainWrite (s : State) (wr : Writer) (off : Nat) (val : Word) : State :=
  if plainMay s wr off then
    let (new, bad) := writeFields (fieldsFor wr off) val (reg s off)
    let s := setReg s off (withField off val new)
    if bad then noteReserved s wr off else s
  else s

/-! ## Writes that act -/

/-- A command code that its register reserves (R4, R24). -/
def reservedCommand (s : State) (wr : Writer) (off : Nat) : State :=
  if writerMay s wr off then noteReserved s wr off else s

/-- HLM registers that act. -/
def hlmWrite (s : State) (wr : Writer) (off : Nat) (val : Word) : Option State :=
  if off = Reg.hlmCmd then
    let s := if bit val 0 then after (execStop wr s) s else s
    some (if bit val 1 then after (execFlushq wr s) s else s)
  else if off = Reg.hlmPatch then some (after (execPatchRequest wr val s) s)
  else if off = Reg.hlmPatchCommit then some (after (execHlmPatchCommit wr s) s)
  else if off = Reg.hlmKsubGo then some (after (execKernelSubmit wr s) s)
  else if off = Reg.hlmFpevPop then some (after (execHlmFpevPop wr s) s)
  else none

/-- LDR and TTB registers that act. -/
def ldrTtbWrite (s : State) (wr : Writer) (off : Nat) (val : Word) : Option State :=
  if off = Reg.ldrXsubGo then some (after (if bit val 0 then execLdrXsubStore wr s else execLdrXsubLoad wr s) s)
  else if off = Reg.ttbSrcCommit then some (after (execTtbSrcCommit wr s) s)
  else if off = Reg.ttbSwCommit then some (after (execTtbSwCommit wr s) s)
  else if off = Reg.ttbTloadCommit then some (after (execTtbTloadCommit wr s) s)
  else if off = Reg.ttbAck then some (after (execTtbAck wr val s) s)
  else if off = Reg.ttbNtfPop then some (after (execTtbNtfPop wr s) s)
  else none

/-- QUE and PLT registers that act. -/
def quePltWrite (s : State) (wr : Writer) (off : Nat) (val : Word) : Option State :=
  if off = Reg.queAdmCommit then some (after (execQueAdmCommit wr s) s)
  else if off = Reg.queMbDone then some (after (execQueMbDone wr val s) s)
  else if msixTable ≤ off ∧ off < msixTable + 0x8000 then some (if writerMay s wr off then msixPut s off val else s)
  else if off = Reg.pltWdogCtl then some (after (execPltWdogCtlWrite wr val s) s)
  else if off = Reg.pltWdogKick then some (after (execPltWdogKick wr val s) s)
  else none

/-- NOC and FRY registers that act. -/
def nocFryWrite (s : State) (wr : Writer) (off : Nat) (val : Word) : Option State :=
  if off = Reg.nocRtCommit then some (after (execNocRtCommit wr s) s)
  else if off = Reg.nocIsocmd then some (after (execNocIsocmd wr val s) s)
  else if off = Reg.nocStclr then some (after (execNocStclr wr val s) s)
  else if off = Reg.fryNode then some (after (execFryNodeWrite wr val s) s)
  else if off = Reg.fryTreeCommit then some (after (execFryTreeCommit wr s) s)
  else if off = Reg.fryMbumpHi then some (after (execFryMbumpArm wr val s) s)
  else if Reg.fryPctl ≤ off ∧ off < Reg.fryPctl + 0x80 ∧ (off - Reg.fryPctl) % 0x20 = 0 then
    some (after (execFryPctlWrite wr (BitVec.ofNat 2 ((off - Reg.fryPctl) / 0x20)) val s) s)
  else none

/-- FAB_RCMD: one region, one command (R489, R490). -/
def rcmdWrite (s : State) (wr : Writer) (val : Word) : State :=
  let r : BitVec 3 := BitVec.ofNat 3 (bits val 2 0)
  match bits val 5 4 with
  | 0 => after (execRegionGo wr r s) s
  | 1 => after (execRegionStop wr r s) s
  | 2 => after (execRegionClear wr r s) s
  | _ => reservedCommand s wr Reg.fabRcmd

/-- FAB registers that act. -/
def fabWrite (s : State) (wr : Writer) (off : Nat) (val : Word) : Option State :=
  if off = Reg.fabCfgCommit then some (after (execFabCfgCommit wr s) s)
  else if off = Reg.fabRcmd then some (rcmdWrite s wr val)
  else if off = Reg.fabRclkCommit then some (after (execFabRclkCommit wr val s) s)
  else if Reg.fabIobank ≤ off ∧ off < Reg.fabIobank + 0x10 then
    some (after (execFabIobankWrite wr (BitVec.ofNat 2 ((off - Reg.fabIobank) / 4)) val s) s)
  else if off = Reg.fabCamCommit then some (after (execFabCamCommit wr val s) s)
  else if off = Reg.fabQcommit then some (after (execFabQcommit wr val s) s)
  else if Reg.fabQcfg ≤ off ∧ off < Reg.fabQcommit then
    let n : BitVec 7 := BitVec.ofNat 7 ((off - Reg.fabQcfg) / 0x20)
    (match (off - Reg.fabQcfg) % 0x20 with
    | 0x10 => some (after (execFabQpop wr n val s) s)
    | 0x14 => some (after (execFabQpush wr n val s) s)
    | _ => none)
  else none

/-- PWR_CMD (R536). -/
def pwrCmdWrite (s : State) (wr : Writer) (val : Word) : State :=
  match bits val 1 0 with
  | 1 => after (execSleep wr s) s
  | 2 => after (execRestart wr s) s
  | 3 => after (execRunreq wr (BitVec.ofNat 16 (freeNat s)) (usedFree s)) s
  | _ => reservedCommand s wr Reg.pwrCmd

/-- WDN_FL_CMD (R548). -/
def flCmdWrite (s : State) (wr : Writer) (val : Word) : State :=
  match bits val 1 0 with
  | 1 => after (execFlashRead wr s) s
  | 2 => after (execFlashProgram wr s) s
  | 3 => after (execFlashErase wr s) s
  | _ => reservedCommand s wr Reg.wdnFlCmd

/-- FLT, PWR and WDN registers that act. -/
def fltPwrWrite (s : State) (wr : Writer) (off : Nat) (val : Word) : Option State :=
  if off = Reg.fltSrcCommit then some (after (execFltSrcCommit wr s) s)
  else if off = Reg.fltSwdCommit then some (after (execFltSwdCommit wr s) s)
  else if off = Reg.fltLogPop then some (after (execFltLogPop wr s) s)
  else if off = Reg.pwrCmd then some (pwrCmdWrite s wr val)
  else if off = Reg.pwrAclkCommit then some (after (execPwrAclkCommit wr s) s)
  else if off = Reg.wdnFlCmd then some (flCmdWrite s wr val)
  else if Reg.wdnTag ≤ off ∧ off < Reg.wdnTag + 0x200 then
    some (after (execTagAreaWrite wr (BitVec.ofNat 7 ((off - Reg.wdnTag) / 4)) val s) s)
  else none

/-- The write of a register that acts, if it is one. -/
def actWrite (s : State) (wr : Writer) (off : Nat) (val : Word) : Option State :=
  match blockOf off with
  | 1 => hlmWrite s wr off val
  | 2 => ldrTtbWrite s wr off val
  | 3 => ldrTtbWrite s wr off val
  | 4 => quePltWrite s wr off val
  | 5 => quePltWrite s wr off val
  | 7 => nocFryWrite s wr off val
  | 8 => nocFryWrite s wr off val
  | 9 => fabWrite s wr off val
  | 10 => fltPwrWrite s wr off val
  | 11 => fltPwrWrite s wr off val
  | _ => none

/-- A write of a register outside the debug window; an offset without a register ignores it (R407). -/
def unitWrite (s : State) (wr : Writer) (off : Nat) (val : Word) : State :=
  (actWrite s wr off val).getD (plainWrite s wr off val)

/-- A Pilot's write, or the debugger's that acts as one: of the debug window it reaches the gangway alone (R553). -/
def firmwareWrite (s : State) (wr : Writer) (off : Nat) (val : Word) : State :=
  if 0x508000 ≤ off ∧ off < 0x510000 then
    (if s.hx1 ∧ reachesUnit s wr off then gangwayWrite s off val else s)
  else unitWrite s wr off val

end Sys2Proof.Machine
end

