-- ==== Sys2Proof/Machine/PilotMem.lean ====
section
/-!
DEFINITION. The Pilots' memory: their address map (R406, R409), the causes of a refused access (R328, R332, R343,
R359, R360, R371), reads and writes of each region with the errors they meet (R357, R358, R361, R404), and fetches
through the fetch queue (R312, R359, R363).
-/
namespace Sys2Proof.Machine

/-! ## The address map (R406) -/

/-- What stands at a Pilot address. `hole` is the unmapped part of the 0xE000_0000 region. -/
inductive PilotPlace where
  | bank0
  | rstack
  | bank (n : Nat)
  | window (n : Nat)
  | store
  | table
  | hole
  | mmio
  | unmapped
  deriving DecidableEq, Repr

/-- The Pilot's map. -/
def pilotPlace (a : Nat) : PilotPlace :=
  if a < 0x7C0000 then .bank0
  else if a < 0x800000 then .rstack
  else if 0x1000000 ≤ a ∧ a < 0x4000000 then
    (if a % 0x1000000 < bankSize then .bank (a / 0x1000000) else .unmapped)
  else if 0x40000000 ≤ a ∧ a < 0x80000000 then .window ((a - 0x40000000) / 0x10000000)
  else if 0xE0000000 ≤ a ∧ a < 0xE0100000 then .store
  else if 0xE0100000 ≤ a ∧ a < 0xE0101000 then .table
  else if 0xE0101000 ≤ a ∧ a < 0xF0000000 then .hole
  else if 0xF0000000 ≤ a ∧ a < 0xF0D00000 then .mmio
  else .unmapped

/-- PLT_WINn. -/
def winReg (s : State) (n : Nat) : Word := reg s (Reg.pltWin + 4 * n)

/-- The module address of a Pilot address (R409). -/
def moduleOf (s : State) (a : Nat) : Nat :=
  match pilotPlace a with
  | .window n => bits (winReg s n) 8 0 * 0x10000000 + a % 0x10000000
  | _ => 0x8000000000 + a

/-- The Pilot addresses of n bytes from a, modulo 2^32. -/
def pilotBytes (a n : Nat) : List Nat := (rangeFrom a n).map (· % 2 ^ 32)

/-! ## Causes of a refused access -/

/-- What makes an access: its level, whether it writes, whether it is exclusive (LWX, SWC) or a block step, and
whether the return stack is open to it (RSLD, RSST and the debugger, R337, R565). -/
structure Access where
  level : Nat
  wr    : Bool
  excl  : Bool
  block : Bool
  open_ : Bool
  deriving DecidableEq, Repr

/-- An address inside PLT_UB0. -/
def inUb0 (s : State) (a : Nat) : Bool :=
  decide (getField s Reg.pltUb0 10 0 * 4096 ≤ a) && decide (a < getField s Reg.pltUb0 27 16 * 4096)

/-- A byte whose stores the Pilot is refused (R115, R359). -/
def storeProtected (n off : Nat) : Bool :=
  (decide (n = 1) && decide (0x7FFF00 ≤ off)) || (decide (n = 2) && decide (off < 0x400000))

/-- The level refuses the access at byte a (R25, R99, R116, R122, R359 and each block's rule). -/
def levelRefuses (s : State) (x : Access) (a : Nat) : Bool :=
  match pilotPlace a with
  | .bank0 => decide (x.level = 0) && !inUb0 s a
  | .bank _ => decide (x.level = 0)
  | .window n => bit (winReg s n) 31 && decide (x.level = 0) && !bit (winReg s n) 30
  | .store => decide (x.level = 0)
  | .table => decide (x.level = 0)
  | .hole => decide (x.level = 0)
  | .mmio => mmioRefuses x.level x.wr ((a - 0xF0000000) / 4 * 4)
  | _ => false

/-- The region takes neither exclusive accesses nor block steps (R332, R343). -/
def plainOnly (a : Nat) : Bool :=
  match pilotPlace a with
  | .store => true
  | .table => true
  | .hole => true
  | .mmio => true
  | _ => false

/-- The PROT DETAILs that apply to byte a, or none where it is not refused. A refusal for which the manual names no
DETAIL leaves the list empty; a level-1 store to the control store is refused under R116, which names none of the
two that fit. -/
def protAt (s : State) (x : Access) (a : Nat) : Option (List Nat) :=
  if pilotPlace a = .rstack then (if x.open_ then none else some ([1] ++ if x.excl then [6] else []))
  else
    let lvl : List Nat := if levelRefuses s x a then [2] else []
    let prot : List Nat := match pilotPlace a with
      | .bank n => if x.wr ∧ storeProtected n (a % 0x1000000) then [4] else []
      | .store => if x.wr ∧ x.level = 1 then [2, 4] else []
      | _ => []
    let excl : List Nat := if x.excl ∧ plainOnly a then [6] else []
    let l := lvl ++ (if lvl = [] then prot else []) ++ excl
    if l ≠ [] then some l
    else if x.block ∧ plainOnly a then some [] else none

/-- One of the DETAILs that apply; a free value where the manual does not say which. -/
def pickDetail (s : State) (l : List Nat) : Nat :=
  match l with
  | [d] => d
  | [] => freeNat s % 256
  | l => l.getD (freeNat s % l.length) 0

/-- The state after the DETAIL has been picked. -/
def pickedDetail (s : State) (l : List Nat) : State := if l.length = 1 then s else usedFree s

/-- No region maps byte a: an unmapped address, or a window that is not enabled (R359, R406). -/
def unmappedAt (s : State) (a : Nat) : Bool :=
  match pilotPlace a with
  | .window n => !bit (winReg s n) 31
  | .hole => true
  | .unmapped => true
  | _ => false

/-- An access of n bytes at a that the region wants aligned (R332, Unaligned and split accesses). -/
def alignRefuses (x : Access) (a n : Nat) : Bool :=
  !x.block && decide (a % n ≠ 0) && (x.excl || plainOnly a || plainOnly ((a + n - 1) % 2 ^ 32))

/-- The first cause that refuses an access of n bytes at a: its code, the DETAILs that apply, and whether it lies in
the second half of a split access. The causes are tried in R371's order over both halves (R360). -/
def refusal (s : State) (x : Access) (a n : Nat) : Option (Nat × List Nat × Bool) :=
  let half (b : Nat) : Bool := !x.block && decide (b / 8 ≠ a / 8)
  let bs := pilotBytes a n
  if alignRefuses x a n then some (Cause.align, [2], false)
  else match bs.findSome? (fun b => (protAt s x b).map fun l => (b, l)) with
    | some (b, l) => some (Cause.prot, l, half b)
    | none => (bs.find? (unmappedAt s)).map fun b => (Cause.buserr, [2], half b)

/-! ## Performing an access -/

/-- The data cache may write dirty lines back at any fill: which ones is a free value. -/
def evictSome (s : State) : State := usedFree (writeBack s fun l => (freeNat s).testBit (l % 2 ^ 31))

/-- Bring a line of module DRAM into the data cache (R361, R404). A dirty line is held; whether a clean one is held
is a free value. The last result is the PCLK that the miss adds (R356). -/
def fillLine (s : State) (line : Nat) : State × Resp × Nat :=
  if s.mem.dirty.any (fun p => decide (p.1 = line)) then (s, .ok, 0)
  else if freeNat s % 2 = 1 then (usedFree s, .ok, 0)
  else
    let (s, r, _) := nocRead (evictSome (usedFree s)) 0 (64 * line) 64
    (s, r, 110)

/-- Bring several lines in, up to the first error. -/
def fillLines : State → List Nat → State × Resp × Nat
  | s, [] => (s, .ok, 0)
  | s, l :: t =>
    let (s, r, k) := fillLine s l
    if r ≠ .ok then (s, r, k)
    else
      let (s, r, k') := fillLines s t
      (s, r, k + k')

/-- The lines of module DRAM that hold n bytes at window address a. -/
def linesOf (s : State) (a n : Nat) : List Nat := ((pilotBytes a n).map fun b => moduleOf s b / 64).eraseDups

/-- A byte of the control store: microword n at 32 × n, its bytes 24 to 31 zero (03, The control store). -/
def storeByte (s : State) (off : Nat) : Byte :=
  if off % 32 < 24 then byteOf (storeGet 0 s.helm.store (off / 32)).toNat (off % 32) else 0

/-- A byte of the descriptor table. -/
def tableByte (s : State) (off : Nat) : Byte := byteOf (descAt s (off / 4)).toNat (off % 4)

/-- A register read by the Pilots, or by the debugger as one of them. -/
def mmioRead (s : State) (wr : Writer) (off : Nat) : State × Word :=
  if wr = .debug then quietRead s off else pilotRead s off

/-- A read of a register's bytes: the whole register is read (R327). -/
def mmioLoad (s : State) (wr : Writer) (a n : Nat) : State × Resp × List Byte :=
  let off := a - 0xF0000000
  match nocGate s 0 (0x8000000000 + a) with
  | (s, .ok) =>
    let (s, w) := mmioRead (nocBytes s 0 n) wr (off / 4 * 4)
    (s, .ok, (bytesOf w.toNat 4 |>.drop (off % 4)).take n)
  | (s, r) => (s, r, [])

/-- The lines of module DRAM beyond the first that n bytes at window address a touch. -/
def moreLines (s : State) (a n : Nat) : Nat :=
  match pilotPlace a with
  | .window _ => (linesOf s a n).length - 1
  | _ => 0

/-- The PCLK of a load from a region, beyond the first (R356). -/
def loadPclk (p : PilotPlace) (crossing : Bool) : Nat :=
  (match p with
  | .bank _ => 13
  | .window _ => 2
  | .store => 17
  | .table => 17
  | .mmio => 23
  | _ => 0) + if crossing then 1 else 0

/-- An access whose bytes cross an aligned 8-byte boundary is split (R360). -/
def crosses (a n : Nat) : Bool := decide (8 < a % 8 + n)

/-- The PCLK of a load of n bytes at a whose lines are all in the cache, beyond the first (R356). -/
def loadTime (s : State) (a n : Nat) : Nat := loadPclk (pilotPlace a) (crosses a n) + moreLines s a n

/-- A read of n bytes at a, which no cause refuses: the bytes or the error, and the PCLK that missing lines add. -/
def pilotLoad (s : State) (wr : Writer) (a n : Nat) : State × Resp × List Byte × Nat :=
  match pilotPlace a with
  | .bank b =>
    let (s, r, bs) := nocRead s 0 (bankAddr b (a % 0x1000000)) n
    (s, r, bs, 0)
  | .window _ =>
    let (s, r, m) := fillLines s (linesOf s a n)
    (s, r, (pilotBytes a n).map (fun b => memByte s (moduleOf s b)), m)
  | .store => (s, .ok, (pilotBytes a n).map (fun b => storeByte s (b - 0xE0000000)), 0)
  | .table => (s, .ok, (pilotBytes a n).map (fun b => tableByte s (b - 0xE0100000)), 0)
  | .mmio =>
    let (s, r, bs) := mmioLoad s wr a n
    (s, r, bs, 0)
  | _ =>
    let (s, bad, bs) := homeRead s 0 a n
    (s, if bad then .dataerr else .ok, bs, 0)

/-- Of the lines of a split access to a window, the first can be brought in. -/
def firstFills (s : State) (a n : Nat) : Bool :=
  match linesOf s a n with
  | [l, _] => decide ((fillLine s l).2.1 = .ok)
  | _ => false

/-- A read that meets an error meets it in the second half of a split access (R360, R370). DESIGN CHOICE (log 180):
an error of one request or one line, which holds both halves, shows the first. -/
def loadHalf2 (s : State) (a n : Nat) : Bool :=
  crosses a n && match pilotPlace a with
    | .window _ => firstFills s a n
    | .bank0 => !(homeRead s 0 a (8 - a % 8)).2.1
    | .rstack => !(homeRead s 0 a (8 - a % 8)).2.1
    | _ => false

/-- Store a byte of the control store; bytes 24 to 31 of a microword ignore it. -/
def putStoreByte (s : State) (off : Nat) (b : Byte) : State :=
  if off % 32 < 24 then
    let n := off / 32
    let old := (storeGet 0 s.helm.store n).toNat
    let sh := 8 * (off % 32)
    let new := old - (old >>> sh) % 256 * 2 ^ sh + b.toNat * 2 ^ sh
    updHelm s fun h => { h with store := storePut 0 h.store n (BitVec.ofNat 192 new) }
  else s

/-- The 24-bit groups of a microword that `len` bytes from byte b touch. -/
def parityGroups (b len : Nat) : BitVec 8 :=
  (rangeFrom b len).foldl (fun g i => if i < 24 then g ||| BitVec.ofNat 8 (1 <<< (i / 3)) else g) 0

/-- A write computes the parity of the groups it touches (R117). A word whose every group has been written since it
failed holds good parity; before that, whether the bad group is among those written is a free value. -/
def reparity (s : State) (n : Nat) (groups : BitVec 8) : State :=
  match s.helm.parityBad.find? (fun p => decide (p.1 = n)) with
  | none => s
  | some p =>
    let left := p.2 &&& ~~~ groups
    let others := s.helm.parityBad.filter fun q => decide (q.1 ≠ n)
    if left = 0 then updHelm s fun h => { h with parityBad := others }
    else if left = p.2 then s
    else if freeNat s % 2 = 0 then updHelm (usedFree s) fun h => { h with parityBad := others }
    else updHelm (usedFree s) fun h => { h with parityBad := (n, left) :: others }

/-- A store to the control store (R116). -/
def storeStore (s : State) (off : Nat) (bs : List Byte) : State :=
  if getFlag s Reg.hlmPatch 1 = false then setFlag s Reg.hlmPatch 2
  else
    let s := (bs.zip (rangeFrom off bs.length)).foldl (fun s p => putStoreByte s p.2 p.1) s
    reparity s (off / 32) (parityGroups (off % 32) bs.length)

/-- A store to the descriptor table (R98, R99). -/
def tableStore (s : State) (off : Nat) (bs : List Byte) : State :=
  let old := bytesOf (descAt s (off / 4)).toNat 4
  let k := off % 4
  let new : Word := BitVec.ofNat 32 (numOf (old.take k ++ bs ++ old.drop (k + bs.length)))
  writeDesc s (off / 4) new

/-- A store to a register: a narrow store writes the other bytes as 0. -/
def mmioStore (s : State) (wr : Writer) (a : Nat) (bs : List Byte) : State × Resp :=
  let off := a - 0xF0000000
  match nocGate s 0 (0x8000000000 + a) with
  | (s, .ok) =>
    (firmwareWrite (nocBytes s 0 bs.length) wr (off / 4 * 4) (BitVec.ofNat 32 (numOf bs * 2 ^ (8 * (off % 4)))), .ok)
  | (s, r) => (s, r)

/-- A line becomes dirty: what stands in DRAM is kept beside it (R404). -/
def markDirty (s : State) (line : Nat) : State :=
  if s.mem.dirty.any (fun p => decide (p.1 = line)) then s
  else
    let old : Raw64 := BitVec.ofNat 512 (numOf (memBytes s (64 * line) 64))
    { s with mem := { s.mem with dirty := s.mem.dirty ++ [(line, old)] } }

/-- The Pilot's own store clears its reservation when it touches the block (R330). -/
def ownStore (s : State) (blocks : List Nat) : State :=
  match s.plt.resv with
  | some b => if b ∈ blocks then updPlt s fun p => { p with resv := none } else s
  | none => s

/-- The PCLK of a store to a region, beyond the first (R356). -/
def storePclk (p : PilotPlace) (crossing : Bool) : Nat :=
  (match p with
  | .bank _ => 11
  | .window _ => 1
  | .store => 17
  | .table => 17
  | .mmio => 15
  | _ => 0) + if crossing then 1 else 0

/-- Store bytes into DRAM lines that the data cache holds. -/
def storeCached (s : State) (a : Nat) (bs : List Byte) : State :=
  let s := (linesOf s a bs.length).foldl markDirty s
  (bs.zip (pilotBytes a bs.length)).foldl (fun s p => pokeBytes s (moduleOf s p.2) [p.1]) s

/-- The PCLK of a store of n bytes at a whose lines are all in the cache, beyond the first (R356). -/
def storeTime (s : State) (a n : Nat) : Nat := storePclk (pilotPlace a) (crosses a n) + moreLines s a n

/-- The PCLK of the sends of a write after the first (R357): each costs the store's time. -/
def resendTime (s : State) (a n collided : Nat) : Nat :=
  match pilotPlace a with
  | .bank _ => min 3 collided * (storeTime s a n + 1)
  | _ => 0

/-- A write of bytes at a, which no cause refuses: the error it meets, if any, and the PCLK that missing lines and
sends after the first add. -/
def pilotStore (s : State) (wr : Writer) (a : Nat) (bs : List Byte) (collided : Nat) : State × Resp × Nat :=
  let p := pilotPlace a
  let n := bs.length
  let blocks := (pilotBytes a n).map fun b => moduleOf s b / 64
  match p with
  | .bank b =>
    let (s, r) := pilotBankWrite s (bankAddr b (a % 0x1000000)) bs collided
    (if r = .ok then ownStore s blocks else s, r, resendTime s a n collided)
  | .window _ =>
    let (s, r, m) := fillLines s (linesOf s a n)
    (if r = .ok then ownStore (storeCached s a bs) blocks else s, r, m)
  | .store => (storeStore s (a - 0xE0000000) bs, .ok, 0)
  | .table => (tableStore s (a - 0xE0100000) bs, .ok, 0)
  | .mmio =>
    let (s, r) := mmioStore s wr a bs
    (s, r, 0)
  | _ =>
    let (s, ok) := homeWrite s 0 a bs
    (if ok then ownStore s blocks else s, if ok then .ok else .dataerr, 0)

/-- A write that meets an error meets it in the second half of a split access (R360, R370), as `loadHalf2`. -/
def storeHalf2 (s : State) (a : Nat) (bs : List Byte) : Bool :=
  crosses a bs.length && match pilotPlace a with
    | .window _ => firstFills s a bs.length
    | .bank0 => (homeWrite s 0 a (bs.take (8 - a % 8))).2
    | .rstack => (homeWrite s 0 a (bs.take (8 - a % 8))).2
    | _ => false

/-! ## Data breakpoints (R562) -/

/-- An access of the bytes at these addresses triggers data breakpoint n. -/
def dbpTriggers (s : State) (n : Nat) (wr : Bool) (as : List Nat) : Bool :=
  let c := reg s (Reg.dbgDbpc + 4 * n)
  let m := bits c 7 4
  bit c 0 && bit c (if wr then 2 else 1) &&
    as.any fun a => decide (a / 2 ^ m = (reg s (Reg.dbgDbpa + 4 * n)).toNat / 2 ^ m)

/-- It triggers one of the two. -/
def dbpHit (s : State) (wr : Bool) (as : List Nat) : Bool := dbpTriggers s 0 wr as || dbpTriggers s 1 wr as

/-! ## Fetching (R312, R359, R363) -/

/-- The cause that refuses a fetch at address a: code and the DETAILs that apply. -/
def fetchRefusal (s : State) (a : Nat) : Option (Nat × List Nat) :=
  let user : Bool := decide (s.plt.pl = 0)
  if a % 4 ≠ 0 then some (Cause.align, [1])
  else match pilotPlace a with
    | .bank0 => if user ∧ inUb0 s a = false then some (Cause.prot, [2]) else none
    | .rstack => some (Cause.prot, [1, 3])
    | .window n =>
      if bit (winReg s n) 31 = false then some (Cause.buserr, [2])
      else
        let l := (if user ∧ bit (winReg s n) 30 = false then [2] else []) ++ (if bit (winReg s n) 29 then [] else [3])
        if l = [] then none else some (Cause.prot, l)
    | .unmapped => some (Cause.buserr, [2])
    | _ => some (Cause.prot, if user then [2, 3] else [3])

/-- A fetch of the word at address a: the word, or the exception's code and DETAIL. -/
def fetchAt (s : State) (a : Nat) : State × (Word ⊕ (Nat × Nat)) :=
  match fetchRefusal s a with
  | some (code, l) => (pickedDetail s l, .inr (code, pickDetail s l))
  | none =>
    let (s, r, bs, _) := pilotLoad s .pilot a 4
    (s, if r = .ok then .inl (BitVec.ofNat 32 (numOf bs)) else .inr (Cause.buserr, busDetail r))

/-- The fetch queue takes the word at address a when its fetch meets no error. -/
def queueWord (s : State) (q : List Word) (a : Nat) : State × List Word :=
  match fetchAt s a with
  | (t, .inl w) => (t, q ++ [w])
  | _ => (s, q)

/-- The instruction at pc: from the fetch queue, or fetched; the queue then holds the two words that follow it
(R363), as far as they can be fetched. -/
def fetchNext (s : State) : State × (Word ⊕ (Nat × Nat)) :=
  let pc := s.plt.pc.toNat
  let fill (s : State) (w : Word) (rest : List Word) : State × (Word ⊕ (Nat × Nat)) :=
    let next (k : Nat) : Nat := (pc + 4 * k) % 2 ^ 32
    let (s, rest) := if rest.length = 0 then queueWord s rest (next 1) else (s, rest)
    let (s, rest) := if rest.length = 1 then queueWord s rest (next 2) else (s, rest)
    (updPlt s fun p => { p with fq := rest }, .inl w)
  match s.plt.fq with
  | w :: rest => fill s w rest
  | [] =>
    match fetchAt s pc with
    | (s, .inl w) => fill s w []
    | (s, .inr e) => (s, .inr e)

end Sys2Proof.Machine
end

