-- ==== Sys2Proof/Machine/Pilot.lean ====
section
/-!
DEFINITION. The Pilots' instructions (10, 11): decoding, issue, what each instruction does, and how it retires.

An instruction's command carries the word that the Pilots fetched; it acts when that word stands at pc (R363), no
alarm or line is taken first (R365), and no instruction breakpoint halts the Pilots (R562).
-/
namespace Sys2Proof.Machine

/-! ## Fields and decoding (R313–R315) -/

def opMajor (w : Word) : Nat := bits w 31 26
def opFunct (w : Word) : Nat := bits w 5 0
def rd (w : Word) : BitVec 5 := BitVec.ofNat 5 (bits w 25 21)
def ra (w : Word) : BitVec 5 := BitVec.ofNat 5 (bits w 20 16)
def rb (w : Word) : BitVec 5 := BitVec.ofNat 5 (bits w 15 11)

/-- imm16, sign-extended and zero-extended. -/
def immS (w : Word) : Word := (w.truncate 16).signExtend 32
def immZ (w : Word) : Word := (w.truncate 16).zeroExtend 32

/-- 4 × off21 and 4 × off26. -/
def off21 (w : Word) : Word := (w.truncate 21).signExtend 32 <<< 2
def off26 (w : Word) : Word := (w.truncate 26).signExtend 32 <<< 2

/-- The R-format majors. -/
def isR (w : Word) : Bool := [1, 2, 3, 4, 0x1B].contains (opMajor w)

/-- The instruction a word names: 64 × major, plus the function in an R format. -/
def opCode (w : Word) : Nat := 64 * opMajor w + if isR w then opFunct w else 0

/-- The codes that the tables define (R314, R316, R319, R344, R346). -/
def definedCode (c : Nat) : Bool :=
  (decide (0x40 ≤ c) && decide (c ≤ 0x59)) || (decide (0x80 ≤ c) && decide (c ≤ 0x84)) ||
  (decide (0xC0 ≤ c) && decide (c ≤ 0xCF)) ||
  (decide (0x100 ≤ c) && decide (c ≤ 0x110) && decide (c ≠ 0x107)) ||
  (decide (c % 64 = 0) && ((decide (8 ≤ c / 64) && decide (c / 64 ≤ 0x15)) ||
    (decide (0x18 ≤ c / 64) && decide (c / 64 ≤ 0x1B)) || (decide (0x20 ≤ c / 64) && decide (c / 64 ≤ 0x23))))

/-- Registers that a pair form, a block instruction or a special-register number rules out (R308, R319, R338). -/
def badFields (w : Word) : Bool :=
  let c := opCode w
  (decide (0x81 ≤ c) && decide (c ≤ 0x84) && decide ((rd w).toNat % 2 = 1)) ||
  ((decide (c = 0x100) || decide (c = 0x101)) && decide (27 ≤ (rb w).toNat)) ||
  (decide (0x10E ≤ c) && decide (c ≤ 0x110) &&
    (decide (rd w = ra w) || decide (rd w = rb w) || decide (ra w = rb w) || decide (rd w = 0) || decide (rb w = 0) ||
     (decide (ra w = 0) && decide (c ≠ 0x10F))))

/-- The word is an instruction; any other raises ILLINS (R314, R315). -/
def validWord (w : Word) : Bool :=
  definedCode (opCode w) && !(isR w && decide (bits w 10 6 ≠ 0)) && !badFields w

/-- The lowest level that reads, and that writes, a special register (R308); 0 for a write that is ignored. -/
def srReadLevel (n : Nat) : Nat :=
  if n = 1 ∨ n = 2 ∨ n = 3 ∨ n = 5 then 1
  else if 12 ≤ n ∧ n ≤ 16 then 1 else if 17 ≤ n ∧ n ≤ 21 then 2 else if 22 ≤ n then 3 else 0

def srWriteLevel (n : Nat) : Nat :=
  if n = 0 then 1 else if n = 5 then 2 else if 6 ≤ n ∧ n ≤ 11 then 0 else srReadLevel n

/-- The lowest level that may execute an instruction (R308, R337, R344). -/
def needLevel (w : Word) : Nat :=
  let c := opCode w
  if c = 0x100 then srReadLevel (rb w).toNat
  else if c = 0x101 then srWriteLevel (rb w).toNat
  else if c = 0x102 ∨ c = 0x105 ∨ c = 0x10C ∨ c = 0x10D then 1
  else 0

/-! ## What an instruction leaves -/

/-- Where the instruction stream goes on: the next instruction, a transfer with the PCLK it takes, the same
instruction again, IDLE, or nothing more (an exception has been entered, or the Pilots halt). -/
inductive Flow where
  | next
  | goto (a : Word) (pclk : Nat)
  | again
  | idle
  | over
  deriving DecidableEq, Repr

/-- An instruction's effect: the state with its accesses made, the registers it writes at once, the result it puts
in flight, the PCLK beyond the first, whether it triggers a data breakpoint, and where the stream goes on. -/
structure Effect where
  st     : State
  writes : List (BitVec 5 × Word)
  flight : Option Flight
  pclk   : Nat
  hit    : Bool
  flow   : Flow

/-- An instruction that writes registers and goes on. -/
def Effect.done (s : State) (writes : List (BitVec 5 × Word)) : Effect :=
  { st := s, writes := writes, flight := none, pclk := 0, hit := false, flow := .next }

/-- A transfer. -/
def Effect.jump (s : State) (a : Word) (pclk : Nat) : Effect :=
  { st := s, writes := [], flight := none, pclk := 0, hit := false, flow := .goto a pclk }

/-- The state after an exception entry or a halt. -/
def Effect.ended (s : State) : Effect :=
  { st := s, writes := [], flight := none, pclk := 0, hit := false, flow := .over }

/-- An exception of this instruction. -/
def Effect.raise (s : State) (code detail : Nat) (val : Word) : Effect := .ended (raiseHere s code detail val)

/-- A refused or failed access. -/
def Effect.refuse (s : State) (code detail : Nat) (wr half2 : Bool) (val : Word) : Effect :=
  .ended (raiseAt s code detail wr half2 s.plt.pc val)

/-- The stream after an instruction that raised nothing. -/
def follow (s : State) (f : Flow) : State :=
  match f with
  | .next => updPlt s fun p => { p with pc := p.pc + 4 }
  | .goto a _ => updPlt s fun p => { p with pc := a, fq := [] }
  | .idle => updPlt s fun p => { p with idle := true, fq := [] }
  | .again => s
  | .over => s

/-- PCLK of a flow beyond the first (R355). -/
def Flow.pclk (f : Flow) : Nat :=
  match f with
  | .goto _ n => n - 1
  | _ => 0

/-- An instruction retires: its stall passes, results in flight come one step nearer, its own writes stand against
those that land with it (R324, R351), and a data breakpoint halts the Pilots (R562). Loads in flight count
instructions, so a block instruction counts at its last step alone (R349). -/
def retire (w : Word) (e : Effect) : State :=
  if e.flow = .over then e.st
  else
    let s := agePclk e.st (e.pclk + e.flow.pclk)
    let s := setGprs (if e.flow = .again then agePclk s 1 else age s) e.writes
    let s := match e.flight with
      | some f => launch s f
      | none => s
    let s := follow s e.flow
    let s := if e.flow = .again then updPlt s fun p => { p with fq := w :: p.fq }
      else updDbg s fun d => { d with skipIbp := false }
    if e.hit then haltNow s 4 else s

/-- An instruction breakpoint stands at pc and is armed (R562). -/
def ibpHit (s : State) : Bool :=
  !s.dbg.skipIbp && [0, 1, 2, 3].any fun n =>
    let v := reg s (Reg.dbgIbp + 4 * n)
    bit v 0 && decide (bits v 31 2 = bits s.plt.pc 31 2)

/-- The word the Pilots would execute now, with its fetch made, or the state after the fetch's exception or after
ILLINS or PRIV (R371). -/
def fetchChecked (s : State) : State × Option Word :=
  match fetchNext s with
  | (t, .inr (code, detail)) => (raiseAt t code detail false false s.plt.pc s.plt.pc, none)
  | (t, .inl w) =>
    if validWord w = false then (raiseHere t Cause.illins 0 w, none)
    else if s.plt.pl.toNat < needLevel w then (raiseHere t Cause.priv 0 w, none)
    else (t, some w)

/-- Whether the next thing the Pilots do is to execute the instruction at pc. -/
def mayExecute (s : State) : Bool := pilotsRun s && !s.plt.idle && (takeDue s true).isNone

/-- The word that the fetch delivers, if it does. -/
def deliveredWord (s : State) : Option Word :=
  match fetchNext s with
  | (_, .inl w) => some w
  | _ => none

/-- An instruction's command: it acts when it names what the Pilots do next. -/
def issue (s : State) (w : Word) (code : Nat) (body : Word → State → Effect) : State :=
  if mayExecute s = false then s
  else if ibpHit s then haltNow s 3
  else if deliveredWord s ≠ none ∧ deliveredWord s ≠ some w then s
  else match fetchChecked s with
    | (t, none) => t
    | (t, some f) => if opCode f = code then retire f (body f t) else s

/-! ## ALU group (R316) and I-format arithmetic (R317) -/

/-- gd = f ga gb. -/
def alu2 (f : Word → Word → Word) (w : Word) (s : State) : Effect :=
  let (s, a) := readGpr s (ra w)
  let (s, b) := readGpr s (rb w)
  .done s [(rd w, f a b)]

/-- gd = f ga. -/
def alu1 (f : Word → Word) (w : Word) (s : State) : Effect :=
  let (s, a) := readGpr s (ra w)
  .done s [(rd w, f a)]

/-- gd and CY from ga, gb and CY. -/
def aluCarry (f : Word → Word → Bool → Word × Bool) (w : Word) (s : State) : Effect :=
  let (s, a) := readGpr s (ra w)
  let (s, b) := readGpr s (rb w)
  let (v, c) := f a b s.plt.cy
  .done (updPlt s fun p => { p with cy := c }) [(rd w, v)]

/-- The shift amount of an immediate shift. -/
def shamt (w : Word) : Nat := (rb w).toNat

def carryNat (c : Bool) : Nat := if c then 1 else 0

/-- ga + gb + c, and the carry. -/
def addWith (a b : Word) (c : Bool) : Word × Bool :=
  let t := a.toNat + b.toNat + carryNat c
  (BitVec.ofNat 32 t, decide (2 ^ 32 ≤ t))

/-- ga − gb − c, and the borrow. -/
def subWith (a b : Word) (c : Bool) : Word × Bool :=
  (a - b - BitVec.ofNat 32 (carryNat c), decide (a.toNat < b.toNat + carryNat c))

def addBody : Word → State → Effect := alu2 fun a b => a + b
def subBody : Word → State → Effect := alu2 fun a b => a - b
def andBody : Word → State → Effect := alu2 fun a b => a &&& b
def orBody : Word → State → Effect := alu2 fun a b => a ||| b
def xorBody : Word → State → Effect := alu2 fun a b => a ^^^ b
def norBody : Word → State → Effect := alu2 fun a b => ~~~(a ||| b)
def sllBody : Word → State → Effect := alu2 fun a b => a <<< (b.toNat % 32)
def srlBody : Word → State → Effect := alu2 fun a b => a >>> (b.toNat % 32)
def sraBody : Word → State → Effect := alu2 fun a b => a.sshiftRight (b.toNat % 32)
def slliBody (w : Word) : State → Effect := alu1 (fun a => a <<< shamt w) w
def srliBody (w : Word) : State → Effect := alu1 (fun a => a >>> shamt w) w
def sraiBody (w : Word) : State → Effect := alu1 (fun a => a.sshiftRight (shamt w)) w
def seqBody : Word → State → Effect := alu2 fun a b => boolWord (decide (a = b))
def sneBody : Word → State → Effect := alu2 fun a b => boolWord (decide (a ≠ b))
def sltBody : Word → State → Effect := alu2 fun a b => boolWord (a.slt b)
def sltuBody : Word → State → Effect := alu2 fun a b => boolWord (a.ult b)
def sleBody : Word → State → Effect := alu2 fun a b => boolWord (a.sle b)
def sleuBody : Word → State → Effect := alu2 fun a b => boolWord (a.ule b)
def addcBody : Word → State → Effect := aluCarry fun a b c => addWith a b c
def subcBody : Word → State → Effect := aluCarry fun a b c => subWith a b c
def addczBody : Word → State → Effect := aluCarry fun a b _ => addWith a b false
def subczBody : Word → State → Effect := aluCarry fun a b _ => subWith a b false
def rdcyBody (w : Word) (s : State) : Effect := .done s [(rd w, boolWord s.plt.cy)]
def wrcyBody (w : Word) (s : State) : Effect :=
  let (s, a) := readGpr s (ra w)
  .done (updPlt s fun p => { p with cy := bit a 0 }) []
def sextbBody : Word → State → Effect := alu1 fun a => (a.truncate 8).signExtend 32
def sexthBody : Word → State → Effect := alu1 fun a => (a.truncate 16).signExtend 32
def addiBody (w : Word) : State → Effect := alu1 (fun a => a + immS w) w
def andiBody (w : Word) : State → Effect := alu1 (fun a => a &&& immZ w) w
def oriBody (w : Word) : State → Effect := alu1 (fun a => a ||| immZ w) w
def xoriBody (w : Word) : State → Effect := alu1 (fun a => a ^^^ immZ w) w
def sltiBody (w : Word) : State → Effect := alu1 (fun a => boolWord (a.slt (immS w))) w
def sltiuBody (w : Word) : State → Effect := alu1 (fun a => boolWord (a.ult (immS w))) w
def seqiBody (w : Word) : State → Effect := alu1 (fun a => boolWord (decide (a = immS w))) w
def luiBody (w : Word) (s : State) : Effect := .done s [(rd w, immZ w <<< 16)]

/-! ## Multiply and divide group (R319–R323) -/

/-- L(x): the bit length. -/
def bitLen (n : Nat) : Nat := if n = 0 then 0 else Nat.log2 n + 1

/-- |x| of a signed word, with |0x8000_0000| as 2^31. -/
def mag (x : Word) : Nat := x.toInt.natAbs

/-- Quotient bits of a division (R321). -/
def quotBits (a b : Nat) : Nat := bitLen a + 1 - bitLen b

def mulLatency (b : Nat) : Nat := 2 + (bitLen b + 7) / 8
def divuLatency (a b : Word) : Nat := if b = 0 then 3 else 3 + (quotBits a.toNat b.toNat + 1) / 2
def divLatency (a b : Word) : Nat := if b = 0 then 3 else 4 + (quotBits (mag a) (mag b) + 1) / 2

/-- gd and gd + 1 of a pair form. -/
def pairWrites (w : Word) (lo hi : Word) : List (BitVec 5 × Word) := [(rd w, lo), (rd w + 1, hi)]

/-- An operation of an iterative unit: the pipeline waits for the unit, and the result is in flight. -/
def mdu (k : FlightKind) (latency : Word → Word → Nat) (out : Word → Word → List (BitVec 5 × Word)) (w : Word)
    (s : State) : Effect :=
  let s := awaitUnit s k
  let (s, a) := readGpr s (ra w)
  let (s, b) := readGpr s (rb w)
  { Effect.done s [] with flight := some { kind := k, writes := out a b, flags := 0, left := latency a b - 1 } }

/-- Quotient and remainder of DIV and DIVU (R319, R320). -/
def divWords (a b : Word) : Word × Word :=
  if b = 0 then (0xFFFFFFFF, a) else (BitVec.ofInt 32 (a.toInt.tdiv b.toInt), BitVec.ofInt 32 (a.toInt.tmod b.toInt))
def divuWords (a b : Word) : Word × Word :=
  if b = 0 then (0xFFFFFFFF, a) else (BitVec.ofNat 32 (a.toNat / b.toNat), BitVec.ofNat 32 (a.toNat % b.toNat))

def mulBody (w : Word) : State → Effect :=
  mdu .mul (fun _ b => mulLatency b.toNat) (fun a b => [(rd w, BitVec.ofNat 32 (a.toNat * b.toNat))]) w
def mulwBody (w : Word) : State → Effect :=
  mdu .mul (fun _ b => mulLatency (mag b))
    (fun a b => pairWrites w (BitVec.ofInt 32 (a.toInt * b.toInt)) (BitVec.ofInt 32 (a.toInt * b.toInt / 2 ^ 32))) w
def mulwuBody (w : Word) : State → Effect :=
  mdu .mul (fun _ b => mulLatency b.toNat)
    (fun a b => pairWrites w (BitVec.ofNat 32 (a.toNat * b.toNat)) (BitVec.ofNat 32 (a.toNat * b.toNat / 2 ^ 32))) w
def divBody (w : Word) : State → Effect :=
  mdu .div divLatency (fun a b => pairWrites w (divWords a b).1 (divWords a b).2) w
def divuBody (w : Word) : State → Effect :=
  mdu .div divuLatency (fun a b => pairWrites w (divuWords a b).1 (divuWords a b).2) w

/-! ## Loads and stores (R326–R332) -/

/-- An ordinary access at the current level. -/
def ordinary (s : State) (wr excl : Bool) : Access :=
  { level := s.plt.pl.toNat, wr := wr, excl := excl, block := false, open_ := false }

/-- A load of n bytes at ea, extended by `ext`: a result from Bank 0 is seen by the third instruction after (R348),
any other by the next. -/
def loadFrom (x : Access) (ea : Word) (n : Nat) (ext : Nat → Word) (w : Word) (s : State) : Effect :=
  let a := ea.toNat
  match refusal s x a n with
  | some (code, l, h2) => .refuse (pickedDetail s l) code (pickDetail s l) false h2 ea
  | none =>
    let (t, r, bs, k) := pilotLoad s .pilot a n
    if r ≠ .ok then .refuse t Cause.buserr (busDetail r) false (loadHalf2 s a n) ea
    else
      let v := ext (numOf bs)
      let e : Effect := if pilotPlace a = .bank0 then
          { Effect.done t [] with flight := some { kind := .load, writes := [(rd w, v)], flags := 0, left := 2 } }
        else Effect.done t [(rd w, v)]
      { e with pclk := loadTime s a n + k, hit := dbpHit s false (pilotBytes a n) }

/-- The effective address of an I or S format. -/
def eaOf (w : Word) (s : State) : State × Word :=
  let (s, a) := readGpr s (ra w)
  (s, a + immS w)

/-- An I-format load. -/
def load (n : Nat) (ext : Nat → Word) (w : Word) (s : State) : Effect :=
  let (s, ea) := eaOf w s
  loadFrom (ordinary s false false) ea n ext w s

def sext8 (v : Nat) : Word := (BitVec.ofNat 8 v).signExtend 32
def sext16 (v : Nat) : Word := (BitVec.ofNat 16 v).signExtend 32
def word32 (v : Nat) : Word := BitVec.ofNat 32 v

def lbBody : Word → State → Effect := load 1 sext8
def lbuBody : Word → State → Effect := load 1 word32
def lhBody : Word → State → Effect := load 2 sext16
def lhuBody : Word → State → Effect := load 2 word32
def lwBody : Word → State → Effect := load 4 word32

/-- LWX reserves the block of its address (R329). -/
def lwxBody (w : Word) (s : State) : Effect :=
  let (s, ea) := eaOf w s
  let e := loadFrom (ordinary s false true) ea 4 word32 w s
  if e.flow = .over then e
  else { e with st := updPlt e.st fun p => { p with resv := some (moduleOf s ea.toNat / 64) } }

/-- A store of bytes at ea. -/
def storeTo (x : Access) (ea : Word) (bs : List Byte) (collided : Nat) (s : State) : Effect :=
  let a := ea.toNat
  let n := bs.length
  match refusal s x a n with
  | some (code, l, h2) => .refuse (pickedDetail s l) code (pickDetail s l) true h2 ea
  | none =>
    let (t, r, k) := pilotStore s .pilot a bs collided
    if r ≠ .ok then .refuse t Cause.buserr (busDetail r) true (storeHalf2 s a bs) ea
    else { Effect.done t [] with pclk := storeTime s a n + k, hit := dbpHit s true (pilotBytes a n) }

/-- An S-format store of the low n bytes of gb. -/
def store (n collided : Nat) (w : Word) (s : State) : Effect :=
  let (s, ea) := eaOf w s
  let (s, v) := readGpr s (rd w)
  storeTo (ordinary s true false) ea (bytesOf v.toNat n) collided s

def sbBody (collided : Nat) : Word → State → Effect := store 1 collided
def shBody (collided : Nat) : Word → State → Effect := store 2 collided
def swBody (collided : Nat) : Word → State → Effect := store 4 collided

/-- SWC (R329–R332): `otherWrote` is a write of another master that reaches the block in the same cycle, which goes
first. A failed SWC stores nothing. -/
def swcBody (collided : Nat) (otherWrote : Bool) (w : Word) (s : State) : Effect :=
  let (s, ea) := readGpr s (ra w)
  let (s, v) := readGpr s (rb w)
  let x := ordinary s true true
  match refusal s x ea.toNat 4 with
  | some (code, l, h2) => .refuse (pickedDetail s l) code (pickDetail s l) true h2 ea
  | none =>
    let clear (s : State) : State := updPlt s fun p => { p with resv := none }
    if s.plt.resv = some (moduleOf s ea.toNat / 64) ∧ otherWrote = false then
      let e := storeTo x ea (bytesOf v.toNat 4) collided s
      if e.flow = .over then e else { e with st := clear e.st, writes := [(rd w, 1)], pclk := e.pclk + 1 }
    else { Effect.done (clear s) [(rd w, 0)] with pclk := storePclk (pilotPlace ea.toNat) false + 1 }

/-! ## Branches, calls and the return stack (R333–R337) -/

/-- A conditional branch. -/
def branch (t : Word → Bool) (w : Word) (s : State) : Effect :=
  let (s, a) := readGpr s (rd w)
  if t a then .jump s (s.plt.pc + off21 w) 2 else .done s []

def bezBody : Word → State → Effect := branch fun a => decide (a = 0)
def bnzBody : Word → State → Effect := branch fun a => decide (a ≠ 0)
def jBody (w : Word) (s : State) : Effect := .jump s (s.plt.pc + off26 w) 2

/-- A detail of RSTACK: RSP lies beyond one end; where it lies beyond the other, which detail is a free value. -/
def rstackRaise (s : State) (sure : Bool) (d : Nat) : Effect :=
  if sure then .raise s Cause.rstack d s.plt.rsp else .raise (usedFree s) Cause.rstack (1 + freeNat s % 2) s.plt.rsp

/-- Push the return address and go to `target` (R334, R335). -/
def callTo (target : Word) (s : State) : Effect :=
  let sp := s.plt.rsp.toNat
  if sp < s.plt.rslo.toNat + 4 then rstackRaise s true 1
  else if s.plt.rshi.toNat < sp then rstackRaise s false 1
  else if target.toNat % 4 ≠ 0 then .raise s Cause.align 3 target
  else
    let (t, ok) := homeWrite s 0 (sp - 4) (bytesOf (s.plt.pc + 4).toNat 4)
    if ok = false then .refuse t Cause.buserr 3 true false (s.plt.rsp - 4)
    else .jump (updPlt t fun p => { p with rsp := p.rsp - 4 }) target 2

def callBody (w : Word) (s : State) : Effect := callTo (s.plt.pc + off26 w) s
def jrBody (w : Word) (s : State) : Effect :=
  let (s, a) := readGpr s (ra w)
  if a.toNat % 4 ≠ 0 then .raise s Cause.align 3 a else .jump s a 2
def callrBody (w : Word) (s : State) : Effect :=
  let (s, a) := readGpr s (ra w)
  callTo a s

/-- RET (R334, R335). -/
def retBody (_w : Word) (s : State) : Effect :=
  let sp := s.plt.rsp.toNat
  if s.plt.rshi.toNat < sp + 4 then rstackRaise s true 2
  else if sp < s.plt.rslo.toNat then rstackRaise s false 2
  else
    let (t, bad, bs) := homeRead s 0 sp 4
    let a := word32 (numOf bs)
    if bad then .refuse t Cause.buserr 3 false false s.plt.rsp
    else if a.toNat % 4 ≠ 0 then .raise t Cause.align 3 a
    else .jump (updPlt t fun p => { p with rsp := p.rsp + 4 }) a 3

/-- RSLD and RSST reach the return-stack region alone (R337). -/
def rsRefusal (ea : Word) : Option (Nat × Nat) :=
  if ea.toNat % 4 ≠ 0 then some (Cause.align, 2)
  else if pilotPlace ea.toNat ≠ .rstack then some (Cause.prot, 1)
  else none

def rsldBody (w : Word) (s : State) : Effect :=
  let (s, ea) := readGpr s (ra w)
  match rsRefusal ea with
  | some (code, d) => .refuse s code d false false ea
  | none =>
    let (t, r, bs, _) := pilotLoad s .pilot ea.toNat 4
    if r ≠ .ok then .refuse t Cause.buserr (busDetail r) false false ea
    else { Effect.done t [(rd w, word32 (numOf bs))] with hit := dbpHit s false (pilotBytes ea.toNat 4) }

def rsstBody (w : Word) (s : State) : Effect :=
  let (s, ea) := readGpr s (ra w)
  let (s, v) := readGpr s (rb w)
  match rsRefusal ea with
  | some (code, d) => .refuse s code d true false ea
  | none =>
    let (t, r, _) := pilotStore s .pilot ea.toNat (bytesOf v.toNat 4) 0
    if r ≠ .ok then .refuse t Cause.buserr (busDetail r) true false ea
    else { Effect.done t [] with hit := dbpHit s true (pilotBytes ea.toNat 4) }

/-! ## Special registers (R308–R311, R336, R347, R352) -/

/-- The words of a save set in register order. -/
def SaveSet.word (x : SaveSet) (n : Nat) : Word :=
  match n with
  | 0 => x.pc
  | 1 => x.st
  | 2 => x.rsp
  | 3 => x.cause
  | _ => x.val

/-- The bits of SAVE_CAUSE; [28:16] are reserved (R3, R308). -/
def causeMask : Word := 0xE000FFFF

/-- The bits of ST that are not reserved; SAVE_ST holds a copy of ST (R3, R308; log 78). -/
def stMask : Word := 0x0000010B

/-- One of them replaced. -/
def SaveSet.put (x : SaveSet) (n : Nat) (v : Word) : SaveSet :=
  match n with
  | 0 => { x with pc := v }
  | 1 => { x with st := v &&& stMask }
  | 2 => { x with rsp := v }
  | 3 => { x with cause := v &&& causeMask }
  | _ => { x with val := v }

/-- A special register. -/
def srRead (s : State) (n : Nat) : Word :=
  match n with
  | 0 => stWord s
  | 1 => s.plt.rsp
  | 2 => s.plt.rslo
  | 3 => s.plt.rshi
  | 4 => s.plt.fcsr
  | 5 => s.plt.vbase
  | 6 => BitVec.ofNat 32 s.plt.cyc.toNat
  | 7 => s.plt.cycHi
  | 8 => 0x0100003F
  | 9 => 0x40081008
  | 10 => 0x03E84424
  | 11 => flg s.plt.survivor 9 ||| flg s.plt.solo 8
  | n => if 12 ≤ n ∧ n ≤ 26 then (saveSet s ((n - 7) / 5)).word ((n - 12) % 5) else 0

/-- The writable bits of FCSR: RM, TEN and FLAGS. -/
def fcsrMask : Word := 0x00033F3F

/-- R336 refuses a value of RSP, RSLO or RSHI. -/
def rspRefused (v : Word) : Bool := decide (v.toNat % 4 ≠ 0) || decide (v.toNat < 0x7C0000) || decide (0x800000 < v.toNat)

/-- Write a special register; one that is not writable ignores it. -/
def srWrite (s : State) (n : Nat) (v : Word) : State :=
  match n with
  | 0 => updPlt s fun p => { p with cy := bit v 8, ie := bit v 3 }
  | 1 => updPlt s fun p => { p with rsp := v }
  | 2 => updPlt s fun p => { p with rslo := v }
  | 3 => updPlt s fun p => { p with rshi := v }
  | 4 => updPlt s fun p => { p with fcsr := v &&& fcsrMask }
  | 5 => updPlt s fun p => { p with vbase := v }
  | n => if 12 ≤ n ∧ n ≤ 26 then putSaveSet s ((n - 7) / 5) ((saveSet s ((n - 7) / 5)).put ((n - 12) % 5) v) else s

/-- A flight of the floating-point unit. -/
def isFpu (k : FlightKind) : Bool := decide (k = .fpu) || decide (k = .slow)

/-- A flight of an iterative unit. -/
def isMdu (k : FlightKind) : Bool := decide (k = .mul) || decide (k = .div)

/-- MFS (R308, R309, R352). -/
def mfsBody (w : Word) (s : State) : Effect :=
  let n := (rb w).toNat
  let s := if n = 4 then awaitUnits s isFpu else s
  let v := srRead s n
  let s := if n = 6 then updPlt s fun p => { p with cycHi := BitVec.ofNat 32 (p.cyc.toNat >>> 32) } else s
  .done s [(rd w, v)]

/-- MTS (R308, R310, R336, R352). -/
def mtsBody (w : Word) (s : State) : Effect :=
  let n := (rb w).toNat
  let s := if n = 4 then awaitUnits s isFpu else s
  let (s, v) := readGpr s (ra w)
  if 1 ≤ n ∧ n ≤ 3 ∧ rspRefused v then .raise s Cause.prot 5 v else .done (srWrite s n v) []

/-! ## The rest of the system group (R344, R368, R369) -/

/-- RTE. -/
def rteBody (_w : Word) (s : State) : Effect :=
  let n := s.plt.pl.toNat
  let x := saveSet s n
  if n < bits x.st 1 0 then .raise s Cause.badret n x.st
  else .jump (updPlt (loadSt s x.st) fun p => { p with resv := none }) x.pc 3

/-- n of TRAP and BRK. -/
def trapCode (w : Word) : Word := BitVec.ofNat 32 (bits w 20 11)

def trapBody (w : Word) (s : State) : Effect :=
  .ended (raiseAt s Cause.trap 0 false false (s.plt.pc + 4) (trapCode w))

/-- BRK: with BRKHALT the Pilots halt on it (R563). -/
def brkBody (w : Word) (s : State) : Effect :=
  if getFlag s Reg.dbgCtl 4 then
    .ended (updDbg (haltNow s 5) fun d => { d with onBrk := true })
  else .raise s Cause.brk 0 (trapCode w)

def idleBody (_w : Word) (s : State) : Effect := { Effect.done s [] with flow := .idle }

/-- SYNC.I discards the fetch queue (R345). -/
def syncIBody (_w : Word) (s : State) : Effect :=
  { Effect.done (updPlt s fun p => { p with fq := [] }) [] with pclk := 5 }

def waituBody (_w : Word) (s : State) : Effect := .done (awaitUnits s isMdu) []

/-! ## Block instructions (R338–R343) -/

/-- A block step's access. -/
def blockAccess (s : State) (wr : Bool) : Access :=
  { level := s.plt.pl.toNat, wr := wr, excl := false, block := true, open_ := false }

/-- The bytes of a step: min of the count and what is left of the 64-byte block of `a` (R339). -/
def stepBytes (count a : Word) : Nat := min count.toNat (64 - a.toNat % 64)

/-- A block instruction goes on with its next step, or ends; it stays at its address while an interrupt waits
(R339, R341). -/
def blockFlow (s : State) (left : Word) : Flow := if left ≠ 0 ∨ (takeDue s true).isSome then .again else .next

/-- A step's refusal: the source's causes, then the destination's, in R371's order. -/
def blockRefusal (s : State) (src dst : Option Word) (n : Nat) : Option (Nat × List Nat × Bool × Word) :=
  let of (a : Option Word) (wr : Bool) : List (Nat × List Nat × Bool × Word) :=
    match a with
    | some a =>
      (match refusal s (blockAccess s wr) a.toNat n with
      | some (code, l, _) => [(code, l, wr, a)]
      | none => [])
    | none => []
  let all := of src false ++ of dst true
  match all.find? (fun c => decide (c.1 = Cause.prot)) with
  | some c => some c
  | none => all.head?

/-- The destination bytes of BMOVE: those that overlap the source from above are free values (R342). -/
def moveBytes (s : State) (src dst : Nat) (count : Nat) (bs : List Byte) : State × List Byte :=
  if src < dst ∧ dst < src + count then
    (usedFree s, (bs.zip (rangeFrom dst bs.length)).map fun p =>
      if p.2 < src + count then byteOf (freeNat s) (p.2 - dst) else p.1)
  else (s, bs)

/-- PCLK of a step of BMOVE, BFILL and BCRC whose bytes lie in a region (R356). -/
def stepTime (a : Word) (bank0 window bank : Nat) : Nat :=
  match pilotPlace a.toNat with
  | .bank _ => bank
  | .window _ => window
  | _ => bank0

/-- BMOVE: one step. DESIGN CHOICE (log 182): a step takes the time of a whole step, and one between two regions the
longer of theirs. -/
def bmoveBody (collided : Nat) (w : Word) (s : State) : Effect :=
  let (s, dst) := readGpr s (rd w)
  let (s, src) := readGpr s (ra w)
  let (s, count) := readGpr s (rb w)
  let n := stepBytes count dst
  if n = 0 then .done s []
  else match blockRefusal s (some src) (some dst) n with
    | some (code, l, wr, a) => .refuse (pickedDetail s l) code (pickDetail s l) wr false a
    | none =>
      let (t, r, bs, k) := pilotLoad s .pilot src.toNat n
      if r ≠ .ok then .refuse t Cause.buserr (busDetail r) false false src
      else
        let (t, bs) := moveBytes t src.toNat dst.toNat count.toNat bs
        let (t, r, k') := pilotStore t .pilot dst.toNat bs collided
        if r ≠ .ok then .refuse t Cause.buserr (busDetail r) true false dst
        else
          let d : Word := BitVec.ofNat 32 n
          { st := t, writes := [(ra w, src + d), (rd w, dst + d), (rb w, count - d)], flight := none,
            pclk := max (stepTime src 10 18 30) (stepTime dst 10 18 30) - 1 + k + k', flow := blockFlow t (count - d),
            hit := dbpHit s false (pilotBytes src.toNat n) || dbpHit s true (pilotBytes dst.toNat n) }

/-- BFILL: one step. -/
def bfillBody (collided : Nat) (w : Word) (s : State) : Effect :=
  let (s, dst) := readGpr s (rd w)
  let (s, pat) := readGpr s (ra w)
  let (s, count) := readGpr s (rb w)
  let n := stepBytes count dst
  if n = 0 then .done s []
  else match blockRefusal s none (some dst) n with
    | some (code, l, wr, a) => .refuse (pickedDetail s l) code (pickDetail s l) wr false a
    | none =>
      let bs := (rangeFrom dst.toNat n).map fun x => byteOf pat.toNat (x % 4)
      let (t, r, k) := pilotStore s .pilot dst.toNat bs collided
      if r ≠ .ok then .refuse t Cause.buserr (busDetail r) true false dst
      else
        let d : Word := BitVec.ofNat 32 n
        { st := t, writes := [(rd w, dst + d), (rb w, count - d)], flight := none, pclk := stepTime dst 9 10 20 - 1 + k,
          flow := blockFlow t (count - d), hit := dbpHit s true (pilotBytes dst.toNat n) }

/-- BCRC: one step. -/
def bcrcBody (w : Word) (s : State) : Effect :=
  let (s, crc) := readGpr s (rd w)
  let (s, src) := readGpr s (ra w)
  let (s, count) := readGpr s (rb w)
  let n := stepBytes count src
  if n = 0 then .done s []
  else match blockRefusal s (some src) none n with
    | some (code, l, wr, a) => .refuse (pickedDetail s l) code (pickDetail s l) wr false a
    | none =>
      let (t, r, bs, k) := pilotLoad s .pilot src.toNat n
      if r ≠ .ok then .refuse t Cause.buserr (busDetail r) false false src
      else
        let d : Word := BitVec.ofNat 32 n
        { st := t, writes := [(ra w, src + d), (rd w, crcRun crc bs), (rb w, count - d)], flight := none,
          pclk := stepTime src 18 18 30 - 1 + k, flow := blockFlow t (count - d),
          hit := dbpHit s false (pilotBytes src.toNat n) }

/-! ## Floating-point instructions (R346, R353, R354, R373–R377) -/

/-- FCSR.RM and TEN. -/
def rmOf (s : State) : Nat := bits s.plt.fcsr 17 16
def tenOf (s : State) : Nat := bits s.plt.fcsr 13 8

/-- An FPU instruction that may trap: `subs` marks its subnormal operands (bit 0 ga, bit 1 gb). -/
def fpuDo (k : FlightKind) (latency subs : Nat) (r : FResult) (w : Word) (s : State) : Effect :=
  let r := withDn (decide (subs ≠ 0)) r
  let ten := tenOf s
  let den : Bool := ten.testBit 5
  let trapped := r.flags.toNat % 32 &&& ten % 32
  if den ∧ subs ≠ 0 then .raise s Cause.den 0 (BitVec.ofNat 32 subs)
  else if den ∧ r.tiny then .raise s Cause.den 0 4
  else if trapped ≠ 0 then .raise s Cause.fpe trapped (r.flags.zeroExtend 32)
  else if ten = 0 then
    { Effect.done s [] with
      flight := some { kind := k, writes := [(rd w, r.val)], flags := r.flags, left := latency - 1 } }
  else { Effect.done (raiseFlags s r.flags) [(rd w, r.val)] with pclk := latency - 1 }

/-- Which operands are subnormal. -/
def subMask (a b : Word) : Nat := (if fIsSub a then 1 else 0) + if fIsSub b then 2 else 0

/-- Two operands. -/
def fpu2 (k : FlightKind) (latency : Nat) (f : Nat → Word → Word → FResult) (w : Word) (s : State) : Effect :=
  let s := if k = .slow then awaitUnit s .slow else s
  let (s, a) := readGpr s (ra w)
  let (s, b) := readGpr s (rb w)
  fpuDo k latency (subMask a b) (f (rmOf s) a b) w s

/-- One floating-point operand. -/
def fpu1 (k : FlightKind) (latency : Nat) (f : Nat → Word → FResult) (w : Word) (s : State) : Effect :=
  let s := if k = .slow then awaitUnit s .slow else s
  let (s, a) := readGpr s (ra w)
  fpuDo k latency (subMask a 0) (f (rmOf s) a) w s

/-- One integer operand. -/
def fpuInt (f : Nat → Word → FResult) (w : Word) (s : State) : Effect :=
  let (s, a) := readGpr s (ra w)
  fpuDo .fpu 2 0 (f (rmOf s) a) w s

def faddBody : Word → State → Effect := fpu2 .fpu 3 fpAdd
def fsubBody : Word → State → Effect := fpu2 .fpu 3 fpSub
def fmulBody : Word → State → Effect := fpu2 .fpu 3 fpMul
def fdivBody : Word → State → Effect := fpu2 .slow 12 fpDiv
def fsqrtBody : Word → State → Effect := fpu1 .slow 14 fpSqrt
def fnegBody : Word → State → Effect := alu1 fun a => a ^^^ 0x80000000
def fabsBody : Word → State → Effect := alu1 fun a => a &&& 0x7FFFFFFF
def feqBody : Word → State → Effect := fpu2 .fpu 1 fun _ a b => fpEq a b
def fltBody : Word → State → Effect := fpu2 .fpu 1 fun _ a b => fpLt a b
def fleBody : Word → State → Effect := fpu2 .fpu 1 fun _ a b => fpLe a b
def funBody : Word → State → Effect := fpu2 .fpu 1 fun _ a b => fpUn a b
def fcvtWSBody : Word → State → Effect := fpu1 .fpu 2 fun rm a => fpToInt rm (-2147483648) 2147483647 a
def fcvtWzSBody : Word → State → Effect := fpu1 .fpu 2 fun _ a => fpToInt 1 (-2147483648) 2147483647 a
def fcvtWuSBody : Word → State → Effect := fpu1 .fpu 2 fun rm a => fpToInt rm 0 4294967295 a
def fcvtSWBody : Word → State → Effect := fpuInt fun rm a => fpOfInt rm a.toInt
def fcvtSWuBody : Word → State → Effect := fpuInt fun rm a => fpOfInt rm a.toNat

/-! ## Commands of the ALU group (R316) -/

def execAdd (w : Word) (s : State) : Result := .next (issue s w 0x040 addBody)
def execSub (w : Word) (s : State) : Result := .next (issue s w 0x041 subBody)
def execAnd (w : Word) (s : State) : Result := .next (issue s w 0x042 andBody)
def execOr (w : Word) (s : State) : Result := .next (issue s w 0x043 orBody)
def execXor (w : Word) (s : State) : Result := .next (issue s w 0x044 xorBody)
def execNor (w : Word) (s : State) : Result := .next (issue s w 0x045 norBody)
def execSll (w : Word) (s : State) : Result := .next (issue s w 0x046 sllBody)
def execSrl (w : Word) (s : State) : Result := .next (issue s w 0x047 srlBody)
def execSra (w : Word) (s : State) : Result := .next (issue s w 0x048 sraBody)
def execSlli (w : Word) (s : State) : Result := .next (issue s w 0x049 slliBody)
def execSrli (w : Word) (s : State) : Result := .next (issue s w 0x04A srliBody)
def execSrai (w : Word) (s : State) : Result := .next (issue s w 0x04B sraiBody)
def execSeq (w : Word) (s : State) : Result := .next (issue s w 0x04C seqBody)
def execSne (w : Word) (s : State) : Result := .next (issue s w 0x04D sneBody)
def execSlt (w : Word) (s : State) : Result := .next (issue s w 0x04E sltBody)
def execSltu (w : Word) (s : State) : Result := .next (issue s w 0x04F sltuBody)
def execSle (w : Word) (s : State) : Result := .next (issue s w 0x050 sleBody)
def execSleu (w : Word) (s : State) : Result := .next (issue s w 0x051 sleuBody)
def execAddc (w : Word) (s : State) : Result := .next (issue s w 0x052 addcBody)
def execSubc (w : Word) (s : State) : Result := .next (issue s w 0x053 subcBody)
def execAddcz (w : Word) (s : State) : Result := .next (issue s w 0x054 addczBody)
def execSubcz (w : Word) (s : State) : Result := .next (issue s w 0x055 subczBody)
def execRdcy (w : Word) (s : State) : Result := .next (issue s w 0x056 rdcyBody)
def execWrcy (w : Word) (s : State) : Result := .next (issue s w 0x057 wrcyBody)
def execSextb (w : Word) (s : State) : Result := .next (issue s w 0x058 sextbBody)
def execSexth (w : Word) (s : State) : Result := .next (issue s w 0x059 sexthBody)

/-! ## Commands of the I-format arithmetic (R317) -/

def execAddi (w : Word) (s : State) : Result := .next (issue s w 0x200 addiBody)
def execAndi (w : Word) (s : State) : Result := .next (issue s w 0x240 andiBody)
def execOri (w : Word) (s : State) : Result := .next (issue s w 0x280 oriBody)
def execXori (w : Word) (s : State) : Result := .next (issue s w 0x2C0 xoriBody)
def execSlti (w : Word) (s : State) : Result := .next (issue s w 0x300 sltiBody)
def execSltiu (w : Word) (s : State) : Result := .next (issue s w 0x340 sltiuBody)
def execSeqi (w : Word) (s : State) : Result := .next (issue s w 0x380 seqiBody)
def execLui (w : Word) (s : State) : Result := .next (issue s w 0x3C0 luiBody)

/-! ## Commands of the multiply and divide group (R319) -/

def execMul (w : Word) (s : State) : Result := .next (issue s w 0x080 mulBody)
def execMulw (w : Word) (s : State) : Result := .next (issue s w 0x081 mulwBody)
def execMulwu (w : Word) (s : State) : Result := .next (issue s w 0x082 mulwuBody)
def execDiv (w : Word) (s : State) : Result := .next (issue s w 0x083 divBody)
def execDivu (w : Word) (s : State) : Result := .next (issue s w 0x084 divuBody)

/-! ## Commands of the loads and stores (R326, R329) -/

def execLb (w : Word) (s : State) : Result := .next (issue s w 0x400 lbBody)
def execLbu (w : Word) (s : State) : Result := .next (issue s w 0x440 lbuBody)
def execLh (w : Word) (s : State) : Result := .next (issue s w 0x480 lhBody)
def execLhu (w : Word) (s : State) : Result := .next (issue s w 0x4C0 lhuBody)
def execLw (w : Word) (s : State) : Result := .next (issue s w 0x500 lwBody)
def execLwx (w : Word) (s : State) : Result := .next (issue s w 0x540 lwxBody)
def execSb (w : Word) (collided : Nat) (s : State) : Result := .next (issue s w 0x600 (sbBody collided))
def execSh (w : Word) (collided : Nat) (s : State) : Result := .next (issue s w 0x640 (shBody collided))
def execSw (w : Word) (collided : Nat) (s : State) : Result := .next (issue s w 0x680 (swBody collided))
def execSwc (w : Word) (collided : Nat) (otherWrote : Bool) (s : State) : Result :=
  .next (issue s w 0x6C0 (swcBody collided otherWrote))

/-! ## Commands of the branches, jumps, calls and returns (R333) -/

def execBez (w : Word) (s : State) : Result := .next (issue s w 0x800 bezBody)
def execBnz (w : Word) (s : State) : Result := .next (issue s w 0x840 bnzBody)
def execJ (w : Word) (s : State) : Result := .next (issue s w 0x880 jBody)
def execCall (w : Word) (s : State) : Result := .next (issue s w 0x8C0 callBody)
def execJr (w : Word) (s : State) : Result := .next (issue s w 0x109 jrBody)
def execCallr (w : Word) (s : State) : Result := .next (issue s w 0x10A callrBody)
def execRet (w : Word) (s : State) : Result := .next (issue s w 0x10B retBody)

/-! ## Commands of the system group (R344) -/

def execMfs (w : Word) (s : State) : Result := .next (issue s w 0x100 mfsBody)
def execMts (w : Word) (s : State) : Result := .next (issue s w 0x101 mtsBody)
def execRte (w : Word) (s : State) : Result := .next (issue s w 0x102 rteBody)
def execTrap (w : Word) (s : State) : Result := .next (issue s w 0x103 trapBody)
def execBrk (w : Word) (s : State) : Result := .next (issue s w 0x104 brkBody)
def execIdle (w : Word) (s : State) : Result := .next (issue s w 0x105 idleBody)
def execSyncI (w : Word) (s : State) : Result := .next (issue s w 0x106 syncIBody)
def execWaitu (w : Word) (s : State) : Result := .next (issue s w 0x108 waituBody)
def execRsld (w : Word) (s : State) : Result := .next (issue s w 0x10C rsldBody)
def execRsst (w : Word) (s : State) : Result := .next (issue s w 0x10D rsstBody)
def execBmove (w : Word) (collided : Nat) (s : State) : Result := .next (issue s w 0x10E (bmoveBody collided))
def execBfill (w : Word) (collided : Nat) (s : State) : Result := .next (issue s w 0x10F (bfillBody collided))
def execBcrc (w : Word) (s : State) : Result := .next (issue s w 0x110 bcrcBody)

/-! ## Commands of the FPU group (R346) -/

def execFadd (w : Word) (s : State) : Result := .next (issue s w 0x0C0 faddBody)
def execFsub (w : Word) (s : State) : Result := .next (issue s w 0x0C1 fsubBody)
def execFmul (w : Word) (s : State) : Result := .next (issue s w 0x0C2 fmulBody)
def execFdiv (w : Word) (s : State) : Result := .next (issue s w 0x0C3 fdivBody)
def execFsqrt (w : Word) (s : State) : Result := .next (issue s w 0x0C4 fsqrtBody)
def execFneg (w : Word) (s : State) : Result := .next (issue s w 0x0C5 fnegBody)
def execFabs (w : Word) (s : State) : Result := .next (issue s w 0x0C6 fabsBody)
def execFeq (w : Word) (s : State) : Result := .next (issue s w 0x0C7 feqBody)
def execFlt (w : Word) (s : State) : Result := .next (issue s w 0x0C8 fltBody)
def execFle (w : Word) (s : State) : Result := .next (issue s w 0x0C9 fleBody)
def execFun (w : Word) (s : State) : Result := .next (issue s w 0x0CA funBody)
def execFcvtWS (w : Word) (s : State) : Result := .next (issue s w 0x0CB fcvtWSBody)
def execFcvtWzS (w : Word) (s : State) : Result := .next (issue s w 0x0CC fcvtWzSBody)
def execFcvtWuS (w : Word) (s : State) : Result := .next (issue s w 0x0CD fcvtWuSBody)
def execFcvtSW (w : Word) (s : State) : Result := .next (issue s w 0x0CE fcvtSWBody)
def execFcvtSWu (w : Word) (s : State) : Result := .next (issue s w 0x0CF fcvtSWuBody)

/-! ## Any instruction, for a debugger's STEP -/

/-- What the instruction of a code does. -/
def bodyOf (code : Nat) : Option (Word → State → Effect) :=
  match code with
  | 0x040 => some addBody
  | 0x041 => some subBody
  | 0x042 => some andBody
  | 0x043 => some orBody
  | 0x044 => some xorBody
  | 0x045 => some norBody
  | 0x046 => some sllBody
  | 0x047 => some srlBody
  | 0x048 => some sraBody
  | 0x049 => some slliBody
  | 0x04A => some srliBody
  | 0x04B => some sraiBody
  | 0x04C => some seqBody
  | 0x04D => some sneBody
  | 0x04E => some sltBody
  | 0x04F => some sltuBody
  | 0x050 => some sleBody
  | 0x051 => some sleuBody
  | 0x052 => some addcBody
  | 0x053 => some subcBody
  | 0x054 => some addczBody
  | 0x055 => some subczBody
  | 0x056 => some rdcyBody
  | 0x057 => some wrcyBody
  | 0x058 => some sextbBody
  | 0x059 => some sexthBody
  | 0x200 => some addiBody
  | 0x240 => some andiBody
  | 0x280 => some oriBody
  | 0x2C0 => some xoriBody
  | 0x300 => some sltiBody
  | 0x340 => some sltiuBody
  | 0x380 => some seqiBody
  | 0x3C0 => some luiBody
  | 0x080 => some mulBody
  | 0x081 => some mulwBody
  | 0x082 => some mulwuBody
  | 0x083 => some divBody
  | 0x084 => some divuBody
  | 0x400 => some lbBody
  | 0x440 => some lbuBody
  | 0x480 => some lhBody
  | 0x4C0 => some lhuBody
  | 0x500 => some lwBody
  | 0x540 => some lwxBody
  | 0x600 => some (sbBody 0)
  | 0x640 => some (shBody 0)
  | 0x680 => some (swBody 0)
  | 0x6C0 => some (swcBody 0 false)
  | 0x800 => some bezBody
  | 0x840 => some bnzBody
  | 0x880 => some jBody
  | 0x8C0 => some callBody
  | 0x109 => some jrBody
  | 0x10A => some callrBody
  | 0x10B => some retBody
  | 0x100 => some mfsBody
  | 0x101 => some mtsBody
  | 0x102 => some rteBody
  | 0x103 => some trapBody
  | 0x104 => some brkBody
  | 0x105 => some idleBody
  | 0x106 => some syncIBody
  | 0x108 => some waituBody
  | 0x10C => some rsldBody
  | 0x10D => some rsstBody
  | 0x10E => some (bmoveBody 0)
  | 0x10F => some (bfillBody 0)
  | 0x110 => some bcrcBody
  | 0x0C0 => some faddBody
  | 0x0C1 => some fsubBody
  | 0x0C2 => some fmulBody
  | 0x0C3 => some fdivBody
  | 0x0C4 => some fsqrtBody
  | 0x0C5 => some fnegBody
  | 0x0C6 => some fabsBody
  | 0x0C7 => some feqBody
  | 0x0C8 => some fltBody
  | 0x0C9 => some fleBody
  | 0x0CA => some funBody
  | 0x0CB => some fcvtWSBody
  | 0x0CC => some fcvtWzSBody
  | 0x0CD => some fcvtWuSBody
  | 0x0CE => some fcvtSWBody
  | 0x0CF => some fcvtSWuBody
  | _ => none

/-- The instruction at pc is executed, whatever it is (R561). -/
def runAny (s : State) : State :=
  if ibpHit s then haltNow s 3
  else match fetchChecked s with
    | (t, none) => t
    | (t, some f) =>
      match bodyOf (opCode f) with
      | some body => retire f (body f t)
      | none => t

/-! ## Entries, results in flight and the watchdog -/

/-- ITERATIVE_UNIT_WRITE (R321–R324): nothing issues until the latency of a unit's operation expires, and at the end
of that PCLK it writes its registers; every other unit has come as many PCLK nearer. -/
def execIterativeUnitWrite (divider : Bool) (s : State) : Result :=
  .next (if s.hx1 then awaitUnit s (if divider then .div else .mul) else s)

/-- FPU_RESULT_WRITE (R348, R351, R353): nothing issues until the k-th floating-point result in flight arrives. -/
def execFpuResultWrite (k : Nat) (s : State) : Result :=
  .next (if s.hx1 then
    (match (s.plt.flights.filter fun f => isFpu f.kind)[k]? with
    | some f => agePclk s (max f.left 1)
    | none => s)
  else s)

/-- INTERRUPT_ENTRY (R365, R366, R370): the first takeable line, when no alarm goes before it. -/
def execInterruptEntry (s : State) : Result :=
  .next (if pilotsRun s ∧ (firstAlarm s).isNone then
    (match firstLine s with
    | some k => takeLine s k
    | none => s)
  else s)

/-- ALARM_ENTRY (R365, R366, R370). -/
def execAlarmEntry (s : State) : Result :=
  .next (if pilotsRun s then
    (match firstAlarm s with
    | some d => takeAlarm s d
    | none => s)
  else s)

/-- PILOT_WATCHDOG_EXPIRY (R378): the first expiry sets STAGE and line 9, an expiry with STAGE set is reported and
raises ALARM; either reloads the count. -/
def execPilotWatchdogExpiry (s : State) : Result :=
  .next (if pilotsRun s ∧ s.plt.wdogEn ∧ wdogLeft s = 0 then
    let reload (s : State) : State := updPlt s fun p => { p with wdogCnt := (reg s Reg.pltWdogReload).toNat, wdogAt := s.now }
    if s.plt.wdogStage then raiseAlarm (report (reload s) 0x0D 0 0) 2
    else updPlt (reload s) fun p => { p with wdogStage := true }
  else s)

/-! ## Lockstep and arbitration (R382, R384, R514–R516) -/

/-- LOCKSTEP_MISMATCH (R384, R514): both Pilots freeze and the Helm hold is requested. -/
def execLockstepMismatch (s : State) : Result :=
  .next (if pilotsLive s ∧ s.plt.solo = false then
    updHelm (updPlt s fun p => { p with frozen := true }) askHold
  else s)

/-- The result of an arbitration is shown and logged (R514). -/
def noteArbitration (s : State) (code : Nat) : State :=
  logEntry (setField s Reg.fltWdn 3 2 code) 8 0x10 0 (fld code 0)

/-- Dirty lines are discarded: DRAM keeps what stands there (R515). -/
def discardDirty (s : State) : State :=
  let t := s.mem.dirty.foldl (fun s p => pokeBytes s (64 * p.1) (bytesOf p.2.toNat 64)) s
  { t with mem := { t.mem with dirty := [] } }

/-- The survivor takes the LOAD values and enters level 3 (R515); where it stood is a free value. The Helm's hold
ends, and the pass resumes, to its end where its entries all finished during the hold (R258, R263). -/
def takeover (s : State) (b : Bool) : State :=
  let l := PilotState.load
  let at_ := freeWord s
  let s := updPlt (discardDirty (usedFree s)) fun p =>
    { p with gpr := l.gpr, cy := l.cy, ie := l.ie, pl := l.pl, rsp := l.rsp, rslo := l.rslo, rshi := l.rshi, fcsr := l.fcsr,
             vbase := reg s Reg.fltTkvbase, cyc := l.cyc, cycHi := l.cycHi, save1 := l.save1, save2 := l.save2,
             save3 := l.save3, resv := none, flights := [], fq := [], idle := false, frozen := false, solo := true,
             survivor := b }
  let s := enterLevel s 3 at_ (causeWord Cause.alarm 1 false false false) 0 false
  let s := updHelm s fun h => { h with holdReq := false, held := false }
  let s := settle (updTtb s fun t => { t with openAt := s.now })
  let s := updWdn s fun w => { w with degradedFor := true }
  if s.mode = .run then order s .degrade else s

/-- ARBITRATION_DECISION (R514 step 5, R515, R516): which Pilots pass the self-test. -/
def execArbitrationDecision (aPass bPass : Bool) (s : State) : Result :=
  .next (if s.hx1 ∧ s.plt.frozen ∧ s.wdn.held = false then
    (if aPass = bPass then holdModule (noteArbitration s 3)
     else takeover (noteArbitration s (if aPass then 1 else 2)) (!aPass))
  else s)

end Sys2Proof.Machine
end

