-- ==== Sys2Proof/Machine/Debug.lean ====
section
/-!
DEFINITION. The debug registers, as the TAP and the BAR0 debug window reach them (R550–R558), run control of the
Pilots (R560–R564), the debugger's accesses to registers and memory (R564–R566), and the gangway (R569).
-/
namespace Sys2Proof.Machine

/-! ## Run control of the Pilots -/

/-- Run control acts unless the Warden freezes the Pilots (R564). -/
def runControl (s : State) (f : State → State) : State := if s.plt.frozen then s else f s

/-- STEP (R561): one instruction, or an entry that falls due, and the Pilots halt again. -/
def stepPilots (s : State) : State :=
  if s.plt.halted = false then s
  else
    let s := resumePilots s
    if pilotsLive s = false then haltNow s 2
    else match takeDue s (getFlag s Reg.dbgCtl 5) with
      | some t => haltNow t 2
      | none =>
        let t := if s.plt.idle then s else runAny s
        if t.plt.halted ∨ t.plt.frozen then t else haltNow t 2

/-- The requests in a write of DBG_CTL. -/
def dbgCtlWrite (s : State) (val : Word) : State :=
  let s := setReg s Reg.dbgCtl (val &&& 0x30)
  let s := if bit val 0 then runControl s haltRequest else s
  let s := if bit val 1 then runControl s resumePilots else s
  if bit val 2 then runControl s stepPilots else s

/-! ## Pilot registers (R564) -/

/-- The register that DBG_REGSEL selects; a read of CYCLO captures its high half for the debug path alone (R566). -/
def regSelRead (s : State) (n : Nat) : State × Word :=
  if n < 32 then (s, gprAt s (BitVec.ofNat 5 n))
  else if n = 38 then
    let hi : Word := BitVec.ofNat 32 (s.plt.cyc.toNat >>> 32)
    (updDbg s fun d => { d with quiet := storePut 0 d.quiet Reg.dbgRegdata hi }, srRead s 6)
  else if n = 39 then (s, storeGet 0 s.dbg.quiet Reg.dbgRegdata)
  else if n < 64 then (s, srRead s (n - 32))
  else (s, s.plt.pc)

/-- Write it: as MTS would at level 2 or above, so that a value that R336 refuses changes nothing. -/
def regSelWrite (s : State) (n : Nat) (v : Word) : State :=
  if n < 32 then setGpr s (BitVec.ofNat 5 n) v
  else if n < 64 then (if 33 ≤ n ∧ n ≤ 35 ∧ rspRefused v then s else srWrite s (n - 32) v)
  else updDbg (updPlt s fun p => { p with pc := v, idle := false }) fun d => { d with onBrk := false }

/-- A read of DBG_REGDATA. -/
def regdataRead (s : State) : State × Word :=
  if s.plt.halted then regSelRead s (getField s Reg.dbgRegsel 6 0) else (setFlag s Reg.dbgStat 6, 0)

/-- A write of DBG_REGDATA. -/
def regdataWrite (s : State) (v : Word) : State :=
  if s.plt.halted then regSelWrite s (getField s Reg.dbgRegsel 6 0) v else setFlag s Reg.dbgStat 6

/-! ## Memory (R565, R566) -/

/-- DBG_MCTL.SIZE in bytes. -/
def mSize (s : State) : Nat := 2 ^ getField s Reg.dbgMctl 1 0

/-- The module address in DBG_MADDR. -/
def mAddr (s : State) : Nat := (reg s Reg.dbgMaddrLo).toNat + getField s Reg.dbgMaddrHi 7 0 * 2 ^ 32

/-- The response of the access. -/
def mResp (s : State) (code : Nat) : State := updDbg s fun d => { d with resp := BitVec.ofNat 4 code }

/-- A register seen through n bytes at its byte k. -/
def laneRead (w : Word) (k n : Nat) : List Byte := ((bytesOf w.toNat 4).drop k).take n

/-- A read in SPACE 0, through NI 15. -/
def readModule (s : State) (a n : Nat) : State × Nat × List Byte :=
  match place a with
  | .regs off =>
    (match nocGate s 15 a with
    | (s, .ok) =>
      let (s, w) := quietRead (nocBytes s 15 n) (off / 4 * 4)
      (s, 0, laneRead w (off % 4) n)
    | (s, r) => (s, r.code, []))
  | _ =>
    let (s, r, bs) := nocRead s 15 a n
    (s, r.code, bs)

/-- A write in SPACE 0; in a register block it acts as a Pilot write at level 2. -/
def writeModule (s : State) (a : Nat) (bs : List Byte) (collided : Nat) : State × Nat :=
  match place a with
  | .regs off =>
    (match nocGate s 15 a with
    | (s, .ok) =>
      (firmwareWrite (nocBytes s 15 bs.length) .debug (off / 4 * 4)
        (BitVec.ofNat 32 (numOf bs * 2 ^ (8 * (off % 4)))), 0)
    | (s, r) => (s, r.code))
  | _ =>
    let (s, r) := nocWrite s 15 a bs [collided]
    (s, r.code)

/-- The debugger's access to the Pilots' map (R565). -/
def debugAccess (wr : Bool) : Access := { level := 2, wr := wr, excl := false, block := false, open_ := true }

/-- The pieces of n bytes at a window address: module address and length; the windows need not adjoin in DRAM. -/
def windowPieces (s : State) (a n : Nat) : List (Nat × Nat) :=
  let k := min n (0x10000000 - a % 0x10000000)
  (moduleOf s a, k) :: if k < n then [(moduleOf s (a + k), n - k)] else []

/-- Read pieces of module DRAM, without allocating a line. -/
def readPieces : State → List (Nat × Nat) → State × Resp × List Byte
  | s, [] => (s, .ok, [])
  | s, (a, n) :: t =>
    let (s, r, bs) := nocRead s 15 a n
    if r ≠ .ok then (s, r, bs)
    else
      let (s, r, bs') := readPieces s t
      (s, r, bs ++ bs')

/-- Write pieces of module DRAM. -/
def writePiecesAt : State → List (Nat × Nat) → List Byte → State × Resp
  | s, [], _ => (s, .ok)
  | s, (a, n) :: t, bs =>
    let (s, r) := nocWrite s 15 a (bs.take n) []
    if r ≠ .ok then (s, r) else writePiecesAt s t (bs.drop n)

/-- Whether a Pilot address lies in a DRAM window. -/
def inWindow32 (a : Nat) : Bool := decide (0x40000000 ≤ a) && decide (a < 0x80000000)

/-- A read in SPACE 1: the response code, or the cause code of the Pilot access. -/
def readPilot (s : State) (a n : Nat) : State × Nat × List Byte :=
  match refusal s (debugAccess false) a n with
  | some (code, _, _) => (s, code, [])
  | none =>
    if inWindow32 a then
      let (s, r, bs) := readPieces s (windowPieces s a n)
      (s, if r = .ok then 0 else Cause.buserr, bs)
    else
      let (s, r, bs, _) := pilotLoad s .debug a n
      (s, if r = .ok then 0 else Cause.buserr, bs)

/-- A write in SPACE 1. -/
def writePilot (s : State) (a : Nat) (bs : List Byte) (collided : Nat) : State × Nat :=
  match refusal s (debugAccess true) a bs.length with
  | some (code, _, _) => (s, code)
  | none =>
    if inWindow32 a then
      let (s, r) := writePiecesAt s (windowPieces s a bs.length) bs
      (s, if r = .ok then 0 else Cause.buserr)
    else
      let (s, r, _) := pilotStore s .debug a bs collided
      (s, if r = .ok then 0 else Cause.buserr)

/-- DBG_MCTL.SPACE. -/
def mSpace (s : State) : Bool := getFlag s Reg.dbgMctl 4

/-- A memory access of the debugger; SPACE 1 needs the Pilots halted. -/
def mAccess (s : State) (f : State → State) : State :=
  if mSpace s ∧ s.plt.halted = false then setFlag s Reg.dbgStat 6 else f s

/-- READ: SIZE bytes into DBG_MDATA. -/
def memoryRead (s : State) : State :=
  mAccess s fun s =>
    let n := mSize s
    let (t, code, bs) := if mSpace s then readPilot s (reg s Reg.dbgMaddrLo).toNat n else readModule s (mAddr s) n
    mResp (setReg t Reg.dbgMdata (BitVec.ofNat 32 (numOf bs))) code

/-- A write of DBG_MDATA writes SIZE bytes. -/
def memoryWrite (s : State) (v : Word) (collided : Nat) : State :=
  mAccess (setReg s Reg.dbgMdata v) fun s =>
    let bs := bytesOf v.toNat (mSize s)
    let (t, code) := if mSpace s then writePilot s (reg s Reg.dbgMaddrLo).toNat bs collided
      else writeModule s (mAddr s) bs collided
    mResp t code

/-! ## The debug window (R552, R553, R558) -/

/-- The registers that are open without a session (R553). -/
def openRegister (off : Nat) : Bool := decide (off ≤ Reg.dbgAuthStat)

/-- DBG_STAT. -/
def dbgStatWord (s : State) : Word :=
  reg s Reg.dbgStat ||| flg s.plt.frozen 5 ||| fld s.dbg.cause.toNat 2 ||| flg s.plt.halted 0

/-- DBG_HLMSTAT. -/
def hlmStat17 (s : State) : Word := fld s.dbg.hlmCode.toNat 4 ||| flg (helmAtLanding s) 1 ||| flg (helmHalted s) 0

/-- What a read through a path shows. -/
def dbgRead (s : State) (path : DbgPath) (off : Nat) : State × Word :=
  if s.hx1 = false then (s, 0)
  else if openRegister off then (s, authValue s off)
  else if dbgLevel s path = 0 then (s, 0)
  else if off = Reg.dbgStat then (s, dbgStatWord s)
  else if off = Reg.dbgRegdata then regdataRead s
  else if off = Reg.dbgMctl then (s, reg s off ||| fld s.dbg.resp.toNat 16)
  else if off = Reg.dbgHlmstat then (s, hlmStat17 s)
  else if isGangway off then (s, gwValue s off)
  else if off = Reg.dbgHlm then (s, 0)
  else (s, reg s off)

/-- The level that a write needs: run control, breakpoints, DBG_REGDATA and DBG_MDATA need HALT (R558). -/
def dbgWriteNeed (off : Nat) : Nat :=
  if off = Reg.dbgCtl ∨ off = Reg.dbgHlm ∨ off = Reg.dbgRegdata ∨ off = Reg.dbgMdata ∨
     (Reg.dbgIbp ≤ off ∧ off < Reg.dbgIbp + 0x20) then 2 else 1

/-- A write of plain fields; a reserved code is recorded with the debugger as its writer (R24). -/
def dbgFields (s : State) (off : Nat) (val : Word) : State :=
  let (new, bad) := writeFields (regFields off) val (reg s off)
  let s := setReg s off new
  if bad then noteReserved s .debug off else s

/-- What a write that the session allows does. -/
def dbgApply (s : State) (off : Nat) (val : Word) : State :=
  if off = Reg.dbgCtl then dbgCtlWrite s val
  else if off = Reg.dbgRegdata then regdataWrite s val
  else if off = Reg.dbgMctl then
    let s := dbgFields s off val
    if bit val 8 then memoryRead s else s
  else if off = Reg.dbgMdata then memoryWrite (usedFree s) val (freeNat s % 5)
  else if off = Reg.dbgHlm then helmCommand s .debug (bits val 2 0)
  else if off = Reg.gwRx then gwRxPut s val
  else if off = Reg.gwStat then
    let s := gwStatPut s val
    if bit val 0 then gwTxEmpty s else s
  else dbgFields s off val

/-- A write of DBG_AUTH. -/
def authWrite (s : State) (path : DbgPath) (val : Word) : State :=
  match bits val 5 4 with
  | 0 => logout s path
  | 1 => challenge s path
  | 2 => answer s path (BitVec.ofNat 2 (bits val 1 0))
  | _ => noteReserved s .debug Reg.dbgAuth

/-- A write through a path. -/
def dbgWrite (s : State) (path : DbgPath) (off : Nat) (val : Word) : State :=
  if s.hx1 = false then s
  else if off = Reg.dbgAuth then authWrite s path val
  else if openRegister off then dbgFields s off val
  else if dbgWriteNeed off = 1 ∧ isGangway off = false then dbgAsk s path 1 fun s => dbgApply s off val
  else dbgAct s path (dbgWriteNeed off) fun s => dbgApply s off val

/-! ## The TAP (R550–R552) -/

/-- TDO is driven, and the TAP answers: it is powered from the release of the HX1's reset until the next entry to STANDBY,
and TDO is high-impedance while it is not (R577). -/
def tdoDriven (s : State) : Bool := s.hx1

/-- The TAP's instruction register takes a code. -/
def selectIr (s : State) (ir : BitVec 5) : State := updDbg s fun d => { d with tapIr := ir }

/-- TAP_RESET (R550): IDCODE is selected. -/
def execTapReset (s : State) : Result := .next (if s.hx1 then selectIr s 2 else s)

/-- IDCODE (R550). -/
def execIdcode (s : State) : Result := .next (if tdoDriven s then answerWith (selectIr s 2) [0x0102456B] else s)

/-- One bit passes the bypass register, which captures 0. -/
def passBypass (s : State) (b : Bool) : State := answerWith (updDbg s fun d => { d with bypass := b }) [0]

/-- The instruction that a code selects: every one but those of EXTEST, SAMPLE/PRELOAD, IDCODE and DBGACC acts as BYPASS
(R550); for those four, which are no BYPASS, the register takes the code of BYPASS. -/
def bypassIr (code : BitVec 5) : BitVec 5 := if code = 0 ∨ code = 1 ∨ code = 2 ∨ code = 8 then 0x1F else code

/-- BYPASS (R550): its code, or one that acts as BYPASS. -/
def execBypass (scan : BypassScan) (s : State) : Result :=
  .next (if tdoDriven s then passBypass (selectIr s (bypassIr scan.code)) scan.bit else s)

/-- A BENCH-level session stands. -/
def benchSession (s : State) : Bool := decide (debugLevel s = 3)

/-- EXTEST drives the output pins from the boundary-scan register (R551). -/
def extestDrives (s : State) : Bool := s.hx1 && decide (s.dbg.tapIr = 0) && benchSession s

/-- The bit of a boundary-scan register in the cell of pin n. -/
def cellBit (v : BitVec 256) (n : Nat) : Bool := v.getLsbD (Config.scanCell n)

/-- What HEALTHY, HEALTHY_PULSE and FRAME_SYNC_OUT show at the pin: none while VWDN is off and nothing drives them (R577,
R585). EXTEST drives FRAME_SYNC_OUT; the other two stay the Warden's (R551). -/
def healthyPin (s : State) : Option Bool := if s.mode = .off then none else some s.wdn.healthy
def pulsePin (s : State) : Option Bool := if s.mode = .off then none else some s.wdn.pulse
def syncPin (s : State) : Option Bool :=
  if s.mode = .off then none else some (if extestDrives s then cellBit s.dbg.bscan 2 else s.ttb.syncOut)

/-- HEALTHY as a monitor reads it, through the integrator's pull-down where the pin is not driven (R2, R577). -/
def healthyReads (s : State) : Bool := (healthyPin s).getD false

/-- What SMB_ALERT_N shows, low while an enabled alert stands (R546). -/
def alertPin (s : State) : Bool :=
  if extestDrives s then cellBit s.dbg.bscan 5 else decide (s.wdn.alert &&& s.wdn.alertMask = 0)

/-- The levels of the pins that State holds, numbered as the cells of the boundary-scan register are: HEALTHY,
HEALTHY_PULSE, FRAME_SYNC_OUT, IGN_WAKE, PERST_N and SMB_ALERT_N, and from 32 on, where EXTEST drives them, FIO0 to FIO95
(R551). -/
def scanLevels (s : State) : List (Nat × Bool) :=
  let fio : List (Nat × Bool) :=
    if extestDrives s then (List.range 96).map fun k => (32 + k, cellBit s.dbg.bscan (32 + k)) else []
  [(0, healthyReads s), (1, (pulsePin s).getD false), (2, (syncPin s).getD false), (3, s.wdn.ign), (4, !s.que.perst),
   (5, alertPin s)] ++ fio

/-- A level at pin n stands in the pin's cell. -/
def putCell (v : BitVec 256) (p : Nat × Bool) : BitVec 256 :=
  let bit : BitVec 256 := 1 <<< (Config.scanCell p.1).val
  if p.2 then v ||| bit else v &&& ~~~bit

/-- The boundary-scan register observes the pins, and is then loaded. The cells of pins whose level State does not hold
show free values. -/
def scanPins (s : State) (v : BitVec 256) : State :=
  let seen := (scanLevels s).foldl putCell (BitVec.ofNat 256 (freeNat s))
  answerWith (usedFree (updDbg s fun d => { d with bscan := v })) [seen.toNat]

/-- SAMPLE_PRELOAD (R550). -/
def execSamplePreload (load : BitVec 256) (s : State) : Result :=
  .next (if tdoDriven s then scanPins (selectIr s 1) load else s)

/-- EXTEST (R551): BYPASS unless a BENCH-level session stands; a session of a lower level is denied it (R558). -/
def execExtest (drive : BitVec 256) (s : State) : Result :=
  .next (if tdoDriven s = false then s
  else if benchSession s then scanPins (selectIr s 0) drive
  else
    let s := if debugLevel s = 0 then s else setFlag s Reg.dbgStat 7
    passBypass (selectIr s 0) (drive.getLsbD 255))

/-- A DBGACC access starts a memory access (R565). -/
def accMemory (write : Bool) (off : Nat) (val : Word) : Bool :=
  write && (decide (off = Reg.dbgMdata) || (decide (off = Reg.dbgMctl) && bit val 8))

/-- It addresses SPACE 1, which a write of DBG_MCTL itself selects. -/
def accSpace (s : State) (off : Nat) (val : Word) : Bool := if off = Reg.dbgMctl then bit val 4 else mSpace s

/-- A request in a session that does nothing: above the session's level, a write to a held module, or one that needs the
Pilots halted (R558, R564, R565). -/
def accRefused (s : State) (write : Bool) (off : Nat) (val : Word) : Bool :=
  (write && (decide (dbgLevel s .jtag < dbgWriteNeed off) || s.wdn.held)) ||
  (!s.plt.halted && (decide (off = Reg.dbgRegdata) || (accMemory write off val && accSpace s off val)))

/-- The status codes that a DBGACC access may read: NOAUTH without a session; of a refused request, OK or ERROR; of a
memory access, OK, or BUSY where it still runs at the capture, or ERROR too where its response is not OK; else OK. No
rule chooses among them (DESIGN CHOICE, log 206). -/
def accCodes (s t : State) (write : Bool) (off : Nat) (val : Word) : List Nat :=
  if openRegister off then [0]
  else if dbgLevel s .jtag = 0 then [2]
  else if accRefused s write off val then [0, 3]
  else if accMemory write off val then (if t.dbg.resp = 0 then [0, 1] else [0, 1, 3])
  else [0]

/-- The status of a DBGACC access. -/
def accStatus (s t : State) (write : Bool) (off : Nat) (val : Word) : Nat :=
  let l := accCodes s t write off val
  l.getD (freeNat t % l.length) 0

/-- DBGACC_UPDATE (R552): what was captured of the previous access is answered, and one access is made. -/
def execDbgaccUpdate (dr : BitVec 48) (s : State) : Result :=
  let off := 0x508000 + 4 * ((dr.toNat >>> 32) % 2 ^ 13)
  let val : Word := BitVec.ofNat 32 dr.toNat
  .next (if tdoDriven s = false then s
  else
    let before := [s.dbg.capStat.toNat * 2 ^ 32 + s.dbg.capData.toNat]
    let (t, v) := if dr.getLsbD 47 then (dbgWrite s .jtag off val, val) else dbgRead s .jtag off
    let st := accStatus s t (dr.getLsbD 47) off val
    answerWith (updDbg (usedFree (selectIr t 8)) fun d => { d with capData := v, capStat := BitVec.ofNat 2 st }) before)

/-! ## Commands of the sessions (R554–R557) -/

/-- CHALLENGE. -/
def execChallenge (path : DbgPath) (s : State) : Result := .next (challenge s path)

/-- ANSWER. -/
def execAnswer (path : DbgPath) (level : BitVec 2) (s : State) : Result := .next (answer s path level)

/-- LOGOUT. -/
def execLogout (path : DbgPath) (s : State) : Result := .next (if s.hx1 then logout s path else s)

/-- CHALLENGE_LAPSE: 10 s have passed since it was drawn. -/
def execChallengeLapse (s : State) : Result :=
  .next <| match s.dbg.chal with
    | some (_, _, t) => if t ≤ s.now then updDbg s fun d => { d with chal := none } else s
    | none => s

/-- LOCKOUT_END (R556): 60 s have passed. -/
def execLockoutEnd (s : State) : Result :=
  .next <| match s.dbg.lockEnd with
    | some t => if t ≤ s.now then updDbg s fun d => { d with lockEnd := none } else s
    | none => s

/-! ## Commands of run control and accesses (R560–R568) -/

/-- HALTREQ. -/
def execHaltreq (path : DbgPath) (s : State) : Result := .next (dbgAct s path 2 fun s => runControl s haltRequest)

/-- DBG_RESUME. -/
def execDbgResume (path : DbgPath) (s : State) : Result := .next (dbgAct s path 2 fun s => runControl s resumePilots)

/-- DBG_STEP. -/
def execDbgStep (path : DbgPath) (s : State) : Result := .next (dbgAct s path 2 fun s => runControl s stepPilots)

/-- DBG_REGDATA_ACCESS. -/
def execDbgRegdataAccess (path : DbgPath) (write : Option Word) (s : State) : Result :=
  .next <| match write with
    | some v => dbgAct s path 2 fun s => regdataWrite s v
    | none => dbgAsk s path 1 fun s =>
      let (t, v) := regdataRead s
      answerWith t [v.toNat]

/-- DBG_MDATA_WRITE. -/
def execDbgMdataWrite (path : DbgPath) (val : Word) (collided : Nat) (s : State) : Result :=
  .next (dbgAct s path 2 fun s => memoryWrite s val collided)

/-- DBG_MCTL_READ: a write of DBG_MCTL with READ set. -/
def execDbgMctlRead (path : DbgPath) (val : Word) (s : State) : Result :=
  .next (dbgAsk s path 1 fun s => memoryRead (dbgFields s Reg.dbgMctl val))

/-- HELM_HALT. -/
def execHelmHalt (path : DbgPath) (s : State) : Result := .next (dbgAct s path 2 helmHalt)

/-- HELM_STEP. -/
def execHelmStep (path : DbgPath) (s : State) : Result := .next (dbgAct s path 2 helmStep)

/-- HELM_RESUME. -/
def execHelmResume (path : DbgPath) (s : State) : Result := .next (dbgAct s path 2 helmResume)

/-- SPILL. -/
def execSpill (path : DbgPath) (s : State) : Result := .next (dbgAct s path 2 helmSpill)

/-- GW_RX_WRITE. -/
def execGwRxWrite (path : DbgPath) (val : Word) (s : State) : Result := .next (dbgAct s path 1 fun s => gwRxPut s val)

/-- GW_TX_EMPTY. -/
def execGwTxEmpty (path : DbgPath) (s : State) : Result := .next (dbgAct s path 1 gwTxEmpty)

end Sys2Proof.Machine
end

