-- ==== Sys2Proof/Machine/RegAccess.lean ====
section
/-!
DEFINITION. Accesses through the module's BARs and register reads by name: register writes and reads (R3, R4, R245,
R300, R372, R421, R423, R553, R566), refused sizes (R268) and the DRAM window of BAR4 (R269–R271).
-/
namespace Sys2Proof.Machine

/-! ## Registers -/

/-- Whether an offset lies in the debug window (17, Access paths). -/
def inDebugWindow (off : Nat) : Bool := decide (0x508000 ≤ off) && decide (off < 0x510000)

/-- A request that the endpoint answers with Completer Abort, which AER records (R271). -/
def abortRequest (s : State) : State := answerWith (updQue s fun q => { q with aerAbort := true }) []

/-- A host read of a register: nothing of a held module but GLB, FLT, PWR and WDN (R300), the debug window as its
session opens it (R553), else over the network. A Completer Abort answers no data, UNMAPPED reads 0 (R421). -/
def hostAccess (s : State) (off : Nat) : State :=
  let give (r : State × Word) : State := answerWith r.1 [r.2.toNat]
  if s.hx1 = false then s
  else if s.wdn.held ∧ readableHeld off = false then give (s, 0)
  else if inDebugWindow off then give (dbgRead s .bar0 off)
  else match nocGate s 11 (0x80F0000000 + off) with
    | (t, .ok) => give (hostRead t off)
    | (t, .unmapped) => give (t, 0)
    | (t, _) => abortRequest t

/-- User logic's read of a register: as any read but a quiet one; of the debug window it reaches nothing (log 31). -/
def fabricRead (s : State) (off : Nat) : State × Word :=
  if inDebugWindow off then (s, 0) else (readEffect s off, regValue s off)

/-- User logic's write of a register; of the debug window it reaches nothing (log 31). -/
def fabricWrite (s : State) (off : Nat) (val : Word) : State :=
  if inDebugWindow off then s else unitWrite s .fabric off val

/-- A register read by a party: a Pilot takes the exception of a read that its level or the network refuses (R25, R358,
R359), the debugger needs a session. -/
def readAs (s : State) (wr : Writer) (off : Nat) : State :=
  let give (r : State × Word) : State := answerWith r.1 [r.2.toNat]
  match wr with
  | .host => hostAccess s off
  | .pilot =>
    if firmwareMay s false off then give (pilotRead (nocGate s 0 (regAddr off)).1 off)
    else refuseAccess s wr off false
  | .debug =>
    if s.hx1 = false ∨ debugLevel s = 0 then s
    else if reachesUnit s wr off = false then refuseAccess s wr off false
    else give (quietRead (nocGate s 15 (regAddr off)).1 off)
  | .fabric =>
    if anyRuns s = false then s
    else match nocGate s 6 (regAddr off) with
      | (t, .ok) => give (fabricRead t off)
      | (t, _) => t

/-- RC_FIELD_READ (R3, R566): a register is read; its RC fields clear, unless the read is quiet. -/
def execRcFieldRead (wr : Writer) (off : BitVec 26) (s : State) : Result := .next (readAs s wr (off.toNat / 4 * 4))

/-- TTB_SAIL_LO_READ (R245). -/
def execTtbSailLoRead (wr : Writer) (s : State) : Result := .next (readAs s wr Reg.ttbSailLo)

/-- TTB_REC0_READ (R372). -/
def execTtbRec0Read (wr : Writer) (s : State) : Result := .next (readAs s wr Reg.ttbRec)

/-- LDR_LAST_READ (R372). -/
def execLdrLastRead (wr : Writer) (s : State) : Result := .next (readAs s wr Reg.ldrLast)

/-- NOC_STBYTE_LO_READ (R423). -/
def execNocStbyteLoRead (wr : Writer) (s : State) : Result := .next (readAs s wr Reg.nocStbyteLo)

/-- A host write of a register (R300, R421, R553). -/
def hostWrite (s : State) (off : Nat) (val : Word) : State :=
  if s.hx1 = false then s
  else if s.wdn.held then s
  else if inDebugWindow off then dbgWrite s .bar0 off val
  else match nocGate s 11 (0x80F0000000 + off) with
    | (t, .ok) => unitWrite t .host off val
    | (t, _) => t

/-- REGISTER_WRITE (R4, R24). -/
def execRegisterWrite (wr : Writer) (off : BitVec 26) (val : Word) (s : State) : Result :=
  let o := off.toNat / 4 * 4
  .next <| match wr with
    | .host => hostWrite s o val
    | .pilot =>
      if firmwareMay s true o then firmwareWrite (nocGate s 0 (regAddr o)).1 .pilot o val
      else refuseAccess s wr o true
    | .debug =>
      if debugLevel s < 2 ∨ reachesUnit s wr o = false then refuseAccess s wr o true
      else firmwareWrite (nocGate s 15 (regAddr o)).1 .debug o val
    | .fabric =>
      if anyRuns s = false then s
      else match nocGate s 6 (regAddr o) with
        | (t, .ok) => fabricWrite t o val
        | (t, _) => t

/-- BAR_BAD_SIZE_ACCESS (R268): a write is discarded, a read answers Unsupported Request, which AER records
(R271); BADACC is set. -/
def execBarBadSizeAccess (isWrite : Bool) (s : State) : Result :=
  .next (if s.hx1 = false then s
  else
    let s := setFlag s Reg.queErr 0
    if isWrite then s else answerWith (updQue s fun q => { q with aerUnsupported := true }) [])

/-! ## BAR4 (R269–R271) -/

/-- The size of BAR4 (R266, R267). -/
def bar4Size (s : State) : Nat := 2 ^ (34 + s.que.link.bar4.toNat)

/-- The DRAM address at which BAR4 starts. -/
def bar4Base (s : State) : Nat := getField s Reg.queB4base 2 0 * 2 ^ 34 / bar4Size s * bar4Size s

/-- BAR4_ACCESS. A read answers 0, or 1 where its data is poisoned, and the bytes; UNMAPPED reads 0 and a Completer
Abort answers nothing (R421). -/
def execBar4Access (isWrite : Bool) (off : Nat) (len : Nat) (data : List Byte) (s : State) : Result :=
  let a := bar4Base s + off
  let n := if isWrite then data.length else len
  .next (if s.hx1 = false ∨ bar4Size s ≤ off ∨ n = 0 then s
  else if dramSize < a + n then abortRequest s
  else if isWrite then (if s.wdn.held then s else (nocWrite s 11 a data []).1)
  else match nocRead s 11 a n with
    | (t, .ok, bs) => answerWith t (0 :: bs.map (·.toNat))
    | (t, .dataerr, bs) => answerWith t (1 :: bs.map (·.toNat))
    | (t, .unmapped, _) => answerWith t (List.replicate (n + 1) 0)
    | (t, _, _) => abortRequest t)

end Sys2Proof.Machine
end

