-- ==== Sys2Proof/Machine/Network.lean ====
section
/-!
DEFINITION. Requests that no other row makes: user logic's through FNOC (R469), and requests that no response meets in
time (R418, R421).
-/
namespace Sys2Proof.Machine

/-! ## FNOC (R469) -/

/-- The registers that n bytes at an offset touch. -/
def registersAt (off n : Nat) : List Nat := (List.range ((off % 4 + n + 3) / 4)).map fun i => off / 4 * 4 + 4 * i

/-- The registers that user logic reads, one after the other, and their bytes. -/
def fabricReads : State → List Nat → State × List Byte
  | s, [] => (s, [])
  | s, o :: t =>
    let (s, w) := fabricRead s o
    let (s, bs) := fabricReads s t
    (s, bytesOf w.toNat 4 ++ bs)

/-- User logic writes n bytes of registers: each register that they touch is written whole, its other bytes as 0, as in a
Pilot's narrow store (log 31). -/
def fabricWrites (s : State) (off : Nat) (bs : List Byte) : State :=
  let padded := List.replicate (off % 4) 0 ++ bs
  (registersAt off bs.length).foldl (fun s o =>
    fabricWrite s o (BitVec.ofNat 32 (numOf ((padded.drop (o - off / 4 * 4)).take 4)))) s

/-- FNOC_REQUEST (R420, R469). -/
def execFnocRequest (req : BusReq) (collided : List Nat) (s : State) : Result :=
  .next (if anyRuns s = false then s
  else match req with
    | .read a n =>
      if nocKind a.toNat n = false then s
      else match place a.toNat with
        | .regs off =>
          (match nocGate s 6 a.toNat with
          | (t, .ok) =>
            let (t, bs) := fabricReads (nocBytes t 6 n) (registersAt off n)
            fabricAnswer t .ok ((bs.drop (off % 4)).take n)
          | (t, r) => fabricAnswer t r [])
        | _ =>
          let (t, r, bs) := nocRead s 6 a.toNat n
          fabricAnswer t r bs
    | .write a bs =>
      if nocKind a.toNat bs.length = false then s
      else match place a.toNat with
        | .regs off =>
          (match nocGate s 6 a.toNat with
          | (t, .ok) => fabricAnswer (fabricWrites (nocBytes t 6 bs.length) off bs) .ok []
          | (t, r) => fabricAnswer t r [])
        | _ =>
          let (t, r) := nocWrite s 6 a.toNat bs collided
          fabricAnswer t r [])

/-! ## Timeouts (R418, R421) -/

/-- The addresses that an instruction accesses through the NoC. -/
def nocAddresses (s : State) (w : Word) : List Word :=
  let c := opCode w
  let l : List Word :=
    if (0x400 ≤ c ∧ c ≤ 0x540) ∨ (0x600 ≤ c ∧ c ≤ 0x680) then [gprAt s (ra w) + immS w]
    else if c = 0x6C0 then [gprAt s (ra w)]
    else if c = 0x10E then [gprAt s (ra w), gprAt s (rd w)]
    else if c = 0x10F then [gprAt s (rd w)]
    else if c = 0x110 then [gprAt s (ra w)]
    else []
  l.filter fun a => match pilotPlace a.toNat with
    | .bank _ => true
    | .window _ => true
    | .mmio => true
    | _ => false

/-- The access or the fetch of the Pilots at `addr` times out: BUSERR, and nothing is performed (R358, R418). -/
def pilotTimeout (s : State) (addr : Word) (isWrite : Bool) : State :=
  if mayExecute s = false then s
  else if s.plt.fq = [] ∧ addr = s.plt.pc ∧ isWrite = false ∧ fetchRefusal s addr.toNat = none ∧
      pilotPlace addr.toNat ≠ .bank0 then
    raiseAt s Cause.buserr 5 false false s.plt.pc addr
  else match fetchChecked s with
    | (t, some w) => if addr ∈ nocAddresses t w then raiseAt t Cause.buserr 5 isWrite false s.plt.pc addr else s
    | (_, none) => s

/-- The n bytes from a module address hold an address given by its low 32 bits. -/
def rangeHolds (a n : Nat) (addr : Word) : Bool := decide ((addr - BitVec.ofNat 32 a).toNat < n)

/-- A descriptor's module operand, its space at byte `sp`, its address at byte `at_` and its length at byte `len`, holds
an address. -/
def operandHolds (d : Dispatched) (sp at_ len : Nat) (addr : Word) : Bool :=
  match Space.of (rawField d.raw sp 1) with
  | none | some .host => false
  | some x => rangeHolds (x.addr (rawField d.raw at_ 8)) (rawField d.raw len 4) addr

/-- The first dispatched descriptor that satisfies a test, with its pair. -/
def findDispatched (s : State) (f : Dispatched → Bool) : Option (Nat × Dispatched) :=
  s.que.pairs.findSome? fun p => ((pairOf s p.1).disp.find? f).map fun d => (p.1, d)

/-- The dispatched MOVE, without an error so far, that reads or writes an address (R283). -/
def moveInFlight (s : State) (addr : Word) (isWrite : Bool) : Option (Nat × Dispatched) :=
  findDispatched s fun d => decide (d.work = .move 0) &&
    (if isWrite then operandHolds d 9 24 4 addr else operandHolds d 8 16 4 addr)

/-- The dispatched LINK_SEND, without an error so far, that reads an address (R288). -/
def linkInFlight (s : State) (addr : Word) : Option (Nat × Dispatched) :=
  findDispatched s fun d => match d.work with
    | .link _ st => decide (st = 0) && operandHolds d 7 16 8 addr
    | _ => false

/-- A MOVE of the queue engine is aborted; the module bytes it wrote may or may not have been written, and another
master's write of a reserved block clears the reservation (R330, R418). -/
def abortMove (s : State) (q : Nat) (d : Dispatched) : State :=
  let p := pairOf s q
  let s := setPair s q { p with disp := p.disp.map fun x => if x = d then { x with work := .move 10 } else x }
  match Space.of (rawField d.raw 9 1) with
  | some .host => s
  | some sp =>
    let n := rawField d.raw 4 4
    let a := sp.addr (rawField d.raw 24 8)
    usedFree (pokeBytes (loseReservation s a n) a ((rangeFrom 0 n).map fun i => byteOf (freeNat s) i))
  | none => s

/-- The ACTIVE NODE pair whose ring in module DRAM holds an address. -/
def ringAt (s : State) (addr : Word) : Option Nat :=
  (s.que.pairs.find? fun p => decide (p.2.ctype = 2) && decide (p.2.st = .active) &&
    (rangeHolds p.2.sqBase.toNat (64 * p.2.sqSize) addr || rangeHolds p.2.cqBase.toNat (16 * p.2.cqSize) addr)).map (·.1)

/-- A request of the queue engine times out: a ring access of a NODE pair sends the pair to ERROR, a MOVE that
reads or writes the address ends ABORTED, and so does a LINK_SEND that reads it; any other is a BAR access, answered with
Completer Abort, its write discarded (R299, R421). -/
def queueTimeout (s : State) (addr : Word) (isWrite : Bool) : State :=
  match ringAt s addr with
  | some q => pairError s q
  | none =>
    match moveInFlight s addr isWrite, linkInFlight s addr with
    | some (q, d), _ => abortMove s q d
    | none, some (q, d) =>
      if isWrite then s else endLink s (BitVec.ofNat 16 q) d.pos 10
    | none, none => if isWrite then s else abortRequest s

/-- What a timeout means to its initiator. The fault manager's NI sends no request in this model. -/
def timeoutAt (s : State) (src : Nat) (addr : Word) (isWrite : Bool) : State :=
  match src with
  | 0 => pilotTimeout s addr isWrite
  | 3 =>
    (match s.ldr.run with
    | some r => updLdr (cutTransfer s r) fun l => { l with run := some { r with status := 5 } }
    | none => s)
  | 4 =>
    (match s.ttb.tload with
    | some n =>
      let (s, img) := lostImage s
      endCommit s n img
    | none => s)
  | 6 => if anyRuns s then fabricAnswer s .timeout [] else s
  | 11 => queueTimeout s addr isWrite
  | 14 => s
  | 15 => if debugLevel s = 0 then s else mResp s 6
  | ni => updFry s fun f => { f with late := f.late ++ [ni] }

/-- NOC_TIMEOUT: no response has come to a request of an initiator NI in time; the request counts in the highest bin
of its latencies. -/
def execNocTimeout (src tgt : BitVec 4) (addr : Word) (isWrite : Bool) (s : State) : Result :=
  .next (if s.hx1 ∧ niInitiates src.toNat then
    timeoutAt (nocFailure (nocCount s src.toNat 0 true) src.toNat tgt.toNat .timeout) src.toNat addr isWrite
  else s)

end Sys2Proof.Machine
end

