-- ==== Sys2Proof/Machine/Dispatch.lean ====
section
/-! DEFINITION. One arm per command: the meaning it calls. -/
namespace Sys2Proof.Machine

/-- The effect of a command on everything but the queue. -/
def exec (i : Instr) (s : State) : Host.Outcome State Fault Refusal :=
  match i with
  | .registerWrite wr off val => Sys2Proof.Machine.execRegisterWrite wr off val s
  | .barBadSizeAccess isWrite => Sys2Proof.Machine.execBarBadSizeAccess isWrite s
  | .bar4Access isWrite off len data => Sys2Proof.Machine.execBar4Access isWrite off len data s
  | .perstNAssert => Sys2Proof.Machine.execPerstNAssert s
  | .perstNRise => Sys2Proof.Machine.execPerstNRise s
  | .dlDown => Sys2Proof.Machine.execDlDown s
  | .functionLevelReset => Sys2Proof.Machine.execFunctionLevelReset s
  | .d3hotEntry => Sys2Proof.Machine.execD3hotEntry s
  | .d0Return => Sys2Proof.Machine.execD0Return s
  | .vectorUnmask vec => Sys2Proof.Machine.execVectorUnmask vec s
  | .frameSyncInEdge falling heldPs => Sys2Proof.Machine.execFrameSyncInEdge falling heldPs s
  | .tick junction => Sys2Proof.Machine.execTick junction s
  | .timerTick junction => Sys2Proof.Machine.execTimerTick junction s
  | .tickSourceLoss junction => Sys2Proof.Machine.execTickSourceLoss junction s
  | .clockPauseEnd => Sys2Proof.Machine.execClockPauseEnd s
  | .frameSyncOutEnd => Sys2Proof.Machine.execFrameSyncOutEnd s
  | .checkpointComplete => Sys2Proof.Machine.execCheckpointComplete s
  | .entryRelease idx => Sys2Proof.Machine.execEntryRelease idx s
  | .notifyRecordPost idx => Sys2Proof.Machine.execNotifyRecordPost idx s
  | .deadlineExpiry idx => Sys2Proof.Machine.execDeadlineExpiry idx s
  | .timetableCompletionPost k => Sys2Proof.Machine.execTimetableCompletionPost k s
  | .ttbSrcCommit wr => Sys2Proof.Machine.execTtbSrcCommit wr s
  | .ttbTloadCommit wr => Sys2Proof.Machine.execTtbTloadCommit wr s
  | .tloadCommitDone => Sys2Proof.Machine.execTloadCommitDone s
  | .ttbSwCommit wr => Sys2Proof.Machine.execTtbSwCommit wr s
  | .ttbAck wr val => Sys2Proof.Machine.execTtbAck wr val s
  | .ttbNtfPop wr => Sys2Proof.Machine.execTtbNtfPop wr s
  | .ttbSailLoRead wr => Sys2Proof.Machine.execTtbSailLoRead wr s
  | .microwordIssue => Sys2Proof.Machine.execMicrowordIssue s
  | .abar => Sys2Proof.Machine.execAbar s
  | .halox => Sys2Proof.Machine.execHalox s
  | .halow => Sys2Proof.Machine.execHalow s
  | .halowComplete => Sys2Proof.Machine.execHalowComplete s
  | .halowTimeout => Sys2Proof.Machine.execHalowTimeout s
  | .widthReset => Sys2Proof.Machine.execWidthReset s
  | .widthSet => Sys2Proof.Machine.execWidthSet s
  | .notify => Sys2Proof.Machine.execNotify s
  | .globalOrComplete => Sys2Proof.Machine.execGlobalOrComplete s
  | .censusComplete => Sys2Proof.Machine.execCensusComplete s
  | .installationReductionDone => Sys2Proof.Machine.execInstallationReductionDone s
  | .probeResult => Sys2Proof.Machine.execProbeResult s
  | .liveWidthCommit => Sys2Proof.Machine.execLiveWidthCommit s
  | .landing => Sys2Proof.Machine.execLanding s
  | .kernelResume => Sys2Proof.Machine.execKernelResume s
  | .landlate aclk => Sys2Proof.Machine.execLandlate aclk s
  | .controlStoreParityError => Sys2Proof.Machine.execControlStoreParityError s
  | .kernelSubmit wr => Sys2Proof.Machine.execKernelSubmit wr s
  | .kernelStart => Sys2Proof.Machine.execKernelStart s
  | .kernelEnd => Sys2Proof.Machine.execKernelEnd s
  | .stop wr => Sys2Proof.Machine.execStop wr s
  | .flushq wr => Sys2Proof.Machine.execFlushq wr s
  | .patchRequest wr val => Sys2Proof.Machine.execPatchRequest wr val s
  | .patchGrant => Sys2Proof.Machine.execPatchGrant s
  | .hlmPatchCommit wr => Sys2Proof.Machine.execHlmPatchCommit wr s
  | .hlmFpevPop wr => Sys2Proof.Machine.execHlmFpevPop wr s
  | .ldrXsubLoad wr => Sys2Proof.Machine.execLdrXsubLoad wr s
  | .ldrXsubStore wr => Sys2Proof.Machine.execLdrXsubStore wr s
  | .transferStart => Sys2Proof.Machine.execTransferStart s
  | .loaderSteal => Sys2Proof.Machine.execLoaderSteal s
  | .transferComplete => Sys2Proof.Machine.execTransferComplete s
  | .restoreComplete => Sys2Proof.Machine.execRestoreComplete s
  | .sqTailDoorbell qp val => Sys2Proof.Machine.execSqTailDoorbell qp val s
  | .cqHeadDoorbell qp val => Sys2Proof.Machine.execCqHeadDoorbell qp val s
  | .descriptorFetch qp resp => Sys2Proof.Machine.execDescriptorFetch qp resp s
  | .badop qp => Sys2Proof.Machine.execBadop qp s
  | .kernel qp => Sys2Proof.Machine.execKernel qp s
  | .move qp resp collided => Sys2Proof.Machine.execMove qp resp collided s
  | .moveComplete qp pos => Sys2Proof.Machine.execMoveComplete qp pos s
  | .planeLoad qp => Sys2Proof.Machine.execPlaneLoad qp s
  | .planeStore qp => Sys2Proof.Machine.execPlaneStore qp s
  | .timetableBind qp => Sys2Proof.Machine.execTimetableBind qp s
  | .fence qp => Sys2Proof.Machine.execFence qp s
  | .fenceComplete qp => Sys2Proof.Machine.execFenceComplete qp s
  | .mailbox qp => Sys2Proof.Machine.execMailbox qp s
  | .queMbDone wr val => Sys2Proof.Machine.execQueMbDone wr val s
  | .linkSend qp resp => Sys2Proof.Machine.execLinkSend qp resp s
  | .linkSendTimeout seq => Sys2Proof.Machine.execLinkSendTimeout seq s
  | .identify => Sys2Proof.Machine.execIdentify s
  | .createQp => Sys2Proof.Machine.execCreateQp s
  | .deleteQp => Sys2Proof.Machine.execDeleteQp s
  | .setIrq => Sys2Proof.Machine.execSetIrq s
  | .clientLost => Sys2Proof.Machine.execClientLost s
  | .qpState => Sys2Proof.Machine.execQpState s
  | .pairDrainEnd qp => Sys2Proof.Machine.execPairDrainEnd qp s
  | .modtimeExpiry qp => Sys2Proof.Machine.execModtimeExpiry qp s
  | .queAdmCommit wr => Sys2Proof.Machine.execQueAdmCommit wr s
  | .asyncEventPost => Sys2Proof.Machine.execAsyncEventPost s
  | .add w => Sys2Proof.Machine.execAdd w s
  | .sub w => Sys2Proof.Machine.execSub w s
  | .and w => Sys2Proof.Machine.execAnd w s
  | .or w => Sys2Proof.Machine.execOr w s
  | .xor w => Sys2Proof.Machine.execXor w s
  | .nor w => Sys2Proof.Machine.execNor w s
  | .sll w => Sys2Proof.Machine.execSll w s
  | .srl w => Sys2Proof.Machine.execSrl w s
  | .sra w => Sys2Proof.Machine.execSra w s
  | .slli w => Sys2Proof.Machine.execSlli w s
  | .srli w => Sys2Proof.Machine.execSrli w s
  | .srai w => Sys2Proof.Machine.execSrai w s
  | .seq w => Sys2Proof.Machine.execSeq w s
  | .sne w => Sys2Proof.Machine.execSne w s
  | .slt w => Sys2Proof.Machine.execSlt w s
  | .sltu w => Sys2Proof.Machine.execSltu w s
  | .sle w => Sys2Proof.Machine.execSle w s
  | .sleu w => Sys2Proof.Machine.execSleu w s
  | .addc w => Sys2Proof.Machine.execAddc w s
  | .subc w => Sys2Proof.Machine.execSubc w s
  | .addcz w => Sys2Proof.Machine.execAddcz w s
  | .subcz w => Sys2Proof.Machine.execSubcz w s
  | .rdcy w => Sys2Proof.Machine.execRdcy w s
  | .wrcy w => Sys2Proof.Machine.execWrcy w s
  | .sextb w => Sys2Proof.Machine.execSextb w s
  | .sexth w => Sys2Proof.Machine.execSexth w s
  | .addi w => Sys2Proof.Machine.execAddi w s
  | .andi w => Sys2Proof.Machine.execAndi w s
  | .ori w => Sys2Proof.Machine.execOri w s
  | .xori w => Sys2Proof.Machine.execXori w s
  | .slti w => Sys2Proof.Machine.execSlti w s
  | .sltiu w => Sys2Proof.Machine.execSltiu w s
  | .seqi w => Sys2Proof.Machine.execSeqi w s
  | .lui w => Sys2Proof.Machine.execLui w s
  | .mul w => Sys2Proof.Machine.execMul w s
  | .mulw w => Sys2Proof.Machine.execMulw w s
  | .mulwu w => Sys2Proof.Machine.execMulwu w s
  | .div w => Sys2Proof.Machine.execDiv w s
  | .divu w => Sys2Proof.Machine.execDivu w s
  | .iterativeUnitWrite divider => Sys2Proof.Machine.execIterativeUnitWrite divider s
  | .fpuResultWrite k => Sys2Proof.Machine.execFpuResultWrite k s
  | .lb w => Sys2Proof.Machine.execLb w s
  | .lbu w => Sys2Proof.Machine.execLbu w s
  | .lh w => Sys2Proof.Machine.execLh w s
  | .lhu w => Sys2Proof.Machine.execLhu w s
  | .lw w => Sys2Proof.Machine.execLw w s
  | .lwx w => Sys2Proof.Machine.execLwx w s
  | .sb w collided => Sys2Proof.Machine.execSb w collided s
  | .sh w collided => Sys2Proof.Machine.execSh w collided s
  | .sw w collided => Sys2Proof.Machine.execSw w collided s
  | .swc w collided otherWrote => Sys2Proof.Machine.execSwc w collided otherWrote s
  | .bez w => Sys2Proof.Machine.execBez w s
  | .bnz w => Sys2Proof.Machine.execBnz w s
  | .j w => Sys2Proof.Machine.execJ w s
  | .call w => Sys2Proof.Machine.execCall w s
  | .jr w => Sys2Proof.Machine.execJr w s
  | .callr w => Sys2Proof.Machine.execCallr w s
  | .ret w => Sys2Proof.Machine.execRet w s
  | .mfs w => Sys2Proof.Machine.execMfs w s
  | .mts w => Sys2Proof.Machine.execMts w s
  | .rte w => Sys2Proof.Machine.execRte w s
  | .trap w => Sys2Proof.Machine.execTrap w s
  | .brk w => Sys2Proof.Machine.execBrk w s
  | .idle w => Sys2Proof.Machine.execIdle w s
  | .syncI w => Sys2Proof.Machine.execSyncI w s
  | .waitu w => Sys2Proof.Machine.execWaitu w s
  | .rsld w => Sys2Proof.Machine.execRsld w s
  | .rsst w => Sys2Proof.Machine.execRsst w s
  | .bmove w collided => Sys2Proof.Machine.execBmove w collided s
  | .bfill w collided => Sys2Proof.Machine.execBfill w collided s
  | .bcrc w => Sys2Proof.Machine.execBcrc w s
  | .fadd w => Sys2Proof.Machine.execFadd w s
  | .fsub w => Sys2Proof.Machine.execFsub w s
  | .fmul w => Sys2Proof.Machine.execFmul w s
  | .fdiv w => Sys2Proof.Machine.execFdiv w s
  | .fsqrt w => Sys2Proof.Machine.execFsqrt w s
  | .fneg w => Sys2Proof.Machine.execFneg w s
  | .fabs w => Sys2Proof.Machine.execFabs w s
  | .feq w => Sys2Proof.Machine.execFeq w s
  | .flt w => Sys2Proof.Machine.execFlt w s
  | .fle w => Sys2Proof.Machine.execFle w s
  | .fun_ w => Sys2Proof.Machine.execFun w s
  | .fcvtWS w => Sys2Proof.Machine.execFcvtWS w s
  | .fcvtWzS w => Sys2Proof.Machine.execFcvtWzS w s
  | .fcvtWuS w => Sys2Proof.Machine.execFcvtWuS w s
  | .fcvtSW w => Sys2Proof.Machine.execFcvtSW w s
  | .fcvtSWu w => Sys2Proof.Machine.execFcvtSWu w s
  | .interruptEntry => Sys2Proof.Machine.execInterruptEntry s
  | .alarmEntry => Sys2Proof.Machine.execAlarmEntry s
  | .pilotWatchdogExpiry => Sys2Proof.Machine.execPilotWatchdogExpiry s
  | .pltWdogKick wr val => Sys2Proof.Machine.execPltWdogKick wr val s
  | .pltWdogCtlWrite wr val => Sys2Proof.Machine.execPltWdogCtlWrite wr val s
  | .lockstepMismatch => Sys2Proof.Machine.execLockstepMismatch s
  | .arbitrationDecision aPass bPass => Sys2Proof.Machine.execArbitrationDecision aPass bPass s
  | .nocTimeout src tgt addr isWrite => Sys2Proof.Machine.execNocTimeout src tgt addr isWrite s
  | .bankEccWriteback bank word => Sys2Proof.Machine.execBankEccWriteback bank word s
  | .dramEccWriteback word => Sys2Proof.Machine.execDramEccWriteback word s
  | .patrolScrub => Sys2Proof.Machine.execPatrolScrub s
  | .dramDerate degC => Sys2Proof.Machine.execDramDerate degC s
  | .dramInitDone => Sys2Proof.Machine.execDramInitDone s
  | .nocRtCommit wr => Sys2Proof.Machine.execNocRtCommit wr s
  | .nocIsocmd wr val => Sys2Proof.Machine.execNocIsocmd wr val s
  | .nocStclr wr val => Sys2Proof.Machine.execNocStclr wr val s
  | .nocStbyteLoRead wr => Sys2Proof.Machine.execNocStbyteLoRead wr s
  | .domainWake ni slow => Sys2Proof.Machine.execDomainWake ni slow s
  | .ferryDomainSleep port => Sys2Proof.Machine.execFerryDomainSleep port s
  | .fabricDomainSleep => Sys2Proof.Machine.execFabricDomainSleep s
  | .portSignalDetect port => Sys2Proof.Machine.execPortSignalDetect port s
  | .portUp port t => Sys2Proof.Machine.execPortUp port t s
  | .trainingRetry port => Sys2Proof.Machine.execTrainingRetry port s
  | .portDown port lostSignal => Sys2Proof.Machine.execPortDown port lostSignal s
  | .latencyRecalibration port lat => Sys2Proof.Machine.execLatencyRecalibration port lat s
  | .flitReceive port flit codewordOk corrected => Sys2Proof.Machine.execFlitReceive port flit codewordOk corrected s
  | .discovery nodes => Sys2Proof.Machine.execDiscovery nodes s
  | .fryNodeWrite wr val => Sys2Proof.Machine.execFryNodeWrite wr val s
  | .fryTreeCommit wr => Sys2Proof.Machine.execFryTreeCommit wr s
  | .fryMbumpArm wr val => Sys2Proof.Machine.execFryMbumpArm wr val s
  | .fryPctlWrite wr port val => Sys2Proof.Machine.execFryPctlWrite wr port val s
  | .tickMessageSend => Sys2Proof.Machine.execTickMessageSend s
  | .tickMessageReceive port msg => Sys2Proof.Machine.execTickMessageReceive port msg s
  | .ferryTick junction => Sys2Proof.Machine.execFerryTick junction s
  | .tickReport node sail => Sys2Proof.Machine.execTickReport node sail s
  | .verdictSend => Sys2Proof.Machine.execVerdictSend s
  | .verdict msg => Sys2Proof.Machine.execVerdict msg s
  | .verdictTimeout => Sys2Proof.Machine.execVerdictTimeout s
  | .rejoinRequest node => Sys2Proof.Machine.execRejoinRequest node s
  | .haloArrival side slot sail seq bits => Sys2Proof.Machine.execHaloArrival side slot sail seq bits s
  | .combineContribution node sail k isCensus value => Sys2Proof.Machine.execCombineContribution node sail k isCensus value s
  | .combineTimeout => Sys2Proof.Machine.execCombineTimeout s
  | .pktWrite src dst seq last addr bytes => Sys2Proof.Machine.execPktWrite src dst seq last addr bytes s
  | .pktMailbox src dst seq mcode bytes => Sys2Proof.Machine.execPktMailbox src dst seq mcode bytes s
  | .pktDoorbell src dst qp cqHead val => Sys2Proof.Machine.execPktDoorbell src dst qp cqHead val s
  | .pktNotice src dst qp => Sys2Proof.Machine.execPktNotice src dst qp s
  | .pktAck src dst seq status => Sys2Proof.Machine.execPktAck src dst seq status s
  | .fabCfgCommit wr => Sys2Proof.Machine.execFabCfgCommit wr s
  | .configFrame => Sys2Proof.Machine.execConfigFrame s
  | .regionGo wr r => Sys2Proof.Machine.execRegionGo wr r s
  | .goCrcDone r => Sys2Proof.Machine.execGoCrcDone r s
  | .pinRelease r => Sys2Proof.Machine.execPinRelease r s
  | .regionStop wr r => Sys2Proof.Machine.execRegionStop wr r s
  | .regionClear wr r => Sys2Proof.Machine.execRegionClear wr r s
  | .fabRclkCommit wr val => Sys2Proof.Machine.execFabRclkCommit wr val s
  | .treeSwitchForced r tree => Sys2Proof.Machine.execTreeSwitchForced r tree s
  | .fabCamCommit wr val => Sys2Proof.Machine.execFabCamCommit wr val s
  | .fabQcommit wr val => Sys2Proof.Machine.execFabQcommit wr val s
  | .fabIobankWrite wr b val => Sys2Proof.Machine.execFabIobankWrite wr b val s
  | .fabQpop wr n val => Sys2Proof.Machine.execFabQpop wr n val s
  | .fabQpush wr n val => Sys2Proof.Machine.execFabQpush wr n val s
  | .queuePush n word parityOk => Sys2Proof.Machine.execQueuePush n word parityOk s
  | .queuePop n pushed parityOk => Sys2Proof.Machine.execQueuePop n pushed parityOk s
  | .fnocRequest req collided => Sys2Proof.Machine.execFnocRequest req collided s
  | .uirq k => Sys2Proof.Machine.execUirq k s
  | .faultEvent src inst detail => Sys2Proof.Machine.execFaultEvent src inst detail s
  | .bistStep failOnce failTwice => Sys2Proof.Machine.execBistStep failOnce failTwice s
  | .substitutionDone => Sys2Proof.Machine.execSubstitutionDone s
  | .repairRecordWrite ok => Sys2Proof.Machine.execRepairRecordWrite ok s
  | .fltSrcCommit wr => Sys2Proof.Machine.execFltSrcCommit wr s
  | .fltSwdCommit wr => Sys2Proof.Machine.execFltSwdCommit wr s
  | .fltLogPop wr => Sys2Proof.Machine.execFltLogPop wr s
  | .sailingWatchdogExpiry => Sys2Proof.Machine.execSailingWatchdogExpiry s
  | .wardenNoMajority => Sys2Proof.Machine.execWardenNoMajority s
  | .clockComparison apart => Sys2Proof.Machine.execClockComparison apart s
  | .vinRise mv straps ignWake => Sys2Proof.Machine.execVinRise mv straps ignWake s
  | .vinLow mv => Sys2Proof.Machine.execVinLow mv s
  | .brownOut => Sys2Proof.Machine.execBrownOut s
  | .wardenPowerLoss mv => Sys2Proof.Machine.execWardenPowerLoss mv s
  | .overvoltageShutdown mv => Sys2Proof.Machine.execOvervoltageShutdown mv s
  | .thermalShutdown junction => Sys2Proof.Machine.execThermalShutdown junction s
  | .railFault inst reading => Sys2Proof.Machine.execRailFault inst reading s
  | .pllFault reading => Sys2Proof.Machine.execPllFault reading s
  | .refclkLost reading => Sys2Proof.Machine.execRefclkLost reading s
  | .ignWakeHigh => Sys2Proof.Machine.execIgnWakeHigh s
  | .ignWakeFall => Sys2Proof.Machine.execIgnWakeFall s
  | .ignoffExpiry => Sys2Proof.Machine.execIgnoffExpiry s
  | .wakeDebounceEnd => Sys2Proof.Machine.execWakeDebounceEnd s
  | .hx1ResetRelease straps => Sys2Proof.Machine.execHx1ResetRelease straps s
  | .bootlimExpiry => Sys2Proof.Machine.execBootlimExpiry s
  | .moduleResetEnd straps => Sys2Proof.Machine.execModuleResetEnd straps s
  | .sleep wr => Sys2Proof.Machine.execSleep wr s
  | .restart wr => Sys2Proof.Machine.execRestart wr s
  | .runreq wr junction => Sys2Proof.Machine.execRunreq wr junction s
  | .pwrAclkCommit wr => Sys2Proof.Machine.execPwrAclkCommit wr s
  | .tagAreaWrite wr n val => Sys2Proof.Machine.execTagAreaWrite wr n val s
  | .tagFlashWrite ok => Sys2Proof.Machine.execTagFlashWrite ok s
  | .flashRead wr => Sys2Proof.Machine.execFlashRead wr s
  | .flashProgram wr => Sys2Proof.Machine.execFlashProgram wr s
  | .flashErase wr => Sys2Proof.Machine.execFlashErase wr s
  | .flashOpDone ok => Sys2Proof.Machine.execFlashOpDone ok s
  | .smbMode => Sys2Proof.Machine.execSmbMode s
  | .smbWardenStatus => Sys2Proof.Machine.execSmbWardenStatus s
  | .smbWake => Sys2Proof.Machine.execSmbWake s
  | .smbSleep => Sys2Proof.Machine.execSmbSleep s
  | .smbRestart => Sys2Proof.Machine.execSmbRestart s
  | .smbVin mv => Sys2Proof.Machine.execSmbVin mv s
  | .smbTempJunction t => Sys2Proof.Machine.execSmbTempJunction t s
  | .smbTempWarden t => Sys2Proof.Machine.execSmbTempWarden t s
  | .smbPower dw => Sys2Proof.Machine.execSmbPower dw s
  | .smbTagPtr v => Sys2Proof.Machine.execSmbTagPtr v s
  | .smbTagRead => Sys2Proof.Machine.execSmbTagRead s
  | .smbTagWrite bytes => Sys2Proof.Machine.execSmbTagWrite bytes s
  | .smbBootStatus => Sys2Proof.Machine.execSmbBootStatus s
  | .smbIdent => Sys2Proof.Machine.execSmbIdent s
  | .smbAlertMask write => Sys2Proof.Machine.execSmbAlertMask write s
  | .smbAlertStatus => Sys2Proof.Machine.execSmbAlertStatus s
  | .smbAlertResponse => Sys2Proof.Machine.execSmbAlertResponse s
  | .smbClkTimeout => Sys2Proof.Machine.execSmbClkTimeout s
  | .tapReset => Sys2Proof.Machine.execTapReset s
  | .extest drive => Sys2Proof.Machine.execExtest drive s
  | .samplePreload load => Sys2Proof.Machine.execSamplePreload load s
  | .idcode => Sys2Proof.Machine.execIdcode s
  | .bypass scan => Sys2Proof.Machine.execBypass scan s
  | .dbgaccUpdate dr => Sys2Proof.Machine.execDbgaccUpdate dr s
  | .challenge path => Sys2Proof.Machine.execChallenge path s
  | .answer path level => Sys2Proof.Machine.execAnswer path level s
  | .logout path => Sys2Proof.Machine.execLogout path s
  | .challengeLapse => Sys2Proof.Machine.execChallengeLapse s
  | .lockoutEnd => Sys2Proof.Machine.execLockoutEnd s
  | .haltreq path => Sys2Proof.Machine.execHaltreq path s
  | .dbgResume path => Sys2Proof.Machine.execDbgResume path s
  | .dbgStep path => Sys2Proof.Machine.execDbgStep path s
  | .dbgRegdataAccess path write => Sys2Proof.Machine.execDbgRegdataAccess path write s
  | .dbgMdataWrite path val collided => Sys2Proof.Machine.execDbgMdataWrite path val collided s
  | .dbgMctlRead path val => Sys2Proof.Machine.execDbgMctlRead path val s
  | .helmHalt path => Sys2Proof.Machine.execHelmHalt path s
  | .helmStep path => Sys2Proof.Machine.execHelmStep path s
  | .helmResume path => Sys2Proof.Machine.execHelmResume path s
  | .spill path => Sys2Proof.Machine.execSpill path s
  | .gwRxWrite path val => Sys2Proof.Machine.execGwRxWrite path val s
  | .gwRxRead => Sys2Proof.Machine.execGwRxRead s
  | .gwTxWrite val => Sys2Proof.Machine.execGwTxWrite val s
  | .gwTxEmpty path => Sys2Proof.Machine.execGwTxEmpty path s
  | .rcFieldRead wr off => Sys2Proof.Machine.execRcFieldRead wr off s
  | .ttbRec0Read wr => Sys2Proof.Machine.execTtbRec0Read wr s
  | .ldrLastRead wr => Sys2Proof.Machine.execLdrLastRead wr s
  | .dlUp pasidEn funcMask link => Sys2Proof.Machine.execDlUp pasidEn funcMask link s
  | .ignWakeRise => Sys2Proof.Machine.execIgnWakeRise s
  | .vinReturnWake => Sys2Proof.Machine.execVinReturnWake s
  | .thermalWakeBlockEnd wardenHot => Sys2Proof.Machine.execThermalWakeBlockEnd wardenHot s
  | .tmrCopyDisagreement => Sys2Proof.Machine.execTmrCopyDisagreement s
  | .ferryErrorIntervalEnd port => Sys2Proof.Machine.execFerryErrorIntervalEnd port s
  | .cameraBurst port b => Sys2Proof.Machine.execCameraBurst port b s
  | .bank3Request req => Sys2Proof.Machine.execBank3Request req s
  | .dramTrainingDone => Sys2Proof.Machine.execDramTrainingDone s
  | .pilotSelfTestEnd aPass bPass => Sys2Proof.Machine.execPilotSelfTestEnd aPass bPass s
  | .imageSectionsVerified => Sys2Proof.Machine.execImageSectionsVerified s
  | .rejoinAnswer dest mepoch => Sys2Proof.Machine.execRejoinAnswer dest mepoch s

end Sys2Proof.Machine
end

