-- ==== Sys2Proof/Safety.lean ====
section
/-!
DEFINITION. What counts as a safe state of the module, in the terms the statements use.
-/
namespace Sys2Proof.Safety
open Sys2Proof Sys2Proof.Machine

/-- The bytes of module memory are listed in the canonical form (R396, R401): addresses strictly rising, no
byte listed that equals what an unlisted address reads as. -/
def memoryWf (s : State) : Bool := storeWf (0 : Byte) s.mem.bytes

/-- What holds in every state that a step reaches from one where it holds: HEALTHY is high only in RUN and DEGRADED
(R2), and low while the Warden holds the module or has lowered it until LOAD (R516, R519–R521); the HX1 has no power
in OFF and STANDBY (R531, R532); memory has its canonical form. -/
abbrev Invariant (s : State) : Prop :=
  (s.wdn.healthy = true → s.mode = .run ∨ s.mode = .degraded) ∧
  (s.wdn.held = true ∨ s.wdn.noHealth = true → s.wdn.healthy = false) ∧
  (s.mode = .off ∨ s.mode = .standby → s.hx1 = false) ∧
  memoryWf s = true

/-! ## The Pilots' instructions -/

/-- The Pilots execute the instruction word `w` of code `c` at s, and its fetch leaves t: they run, no alarm or
line goes first (R365), no instruction breakpoint halts them (R562), the fetch delivers w without an error (R371),
w is an instruction (R314, R315), and the level may execute it (R308, R337, R344). -/
abbrev Executes (s t : State) (w : Word) (c : Nat) : Prop :=
  mayExecute s = true ∧ ibpHit s = false ∧ fetchNext s = (t, .inl w) ∧ validWord w = true ∧
    needLevel w ≤ s.plt.pl.toNat ∧ opCode w = c

/-- No source register is a destination of a busy iterative unit (R322). -/
abbrev Settled (t : State) (l : List (BitVec 5)) : Prop := ∀ r ∈ l, r = 0 ∨ unitOwns t r = false

/-- The next instruction in sequence. -/
def inSequence (t : State) : State :=
  { t with plt := { t.plt with pc := t.plt.pc + 4 }, dbg := { t.dbg with skipIbp := false } }

/-- A transfer to address a: what was fetched after it is discarded (R333, R363). -/
def transferTo (t : State) (a : Word) : State :=
  { t with plt := { t.plt with pc := a, fq := [] }, dbg := { t.dbg with skipIbp := false } }

/-- An instruction that writes gd and nothing else: its code, its command, the registers it reads, and its result
from its word, ga and gb. -/
structure AluRow where
  code  : Nat
  instr : Word → Instr
  reads : Word → List (BitVec 5)
  value : Word → Word → Word → Word

def noReads (_ : Word) : List (BitVec 5) := []
def readsA (w : Word) : List (BitVec 5) := [ra w]
def readsAB (w : Word) : List (BitVec 5) := [ra w, rb w]

/-- 1 where a condition holds, else 0. -/
def oneIf (b : Bool) : Word := if b then 1 else 0

/-- imm16 and n of an instruction word. -/
def imm16 (w : Word) : BitVec 16 := w.truncate 16
def shiftN (w : Word) : Nat := (rb w).toNat

/-- The ALU group without the carry (R316), the I-format arithmetic (R317), and FNEG and FABS (R346). -/
def aluRows : List AluRow :=
  [⟨0x040, .add, readsAB, fun _ a b => a + b⟩,
   ⟨0x041, .sub, readsAB, fun _ a b => a - b⟩,
   ⟨0x042, .and, readsAB, fun _ a b => a &&& b⟩,
   ⟨0x043, .or, readsAB, fun _ a b => a ||| b⟩,
   ⟨0x044, .xor, readsAB, fun _ a b => a ^^^ b⟩,
   ⟨0x045, .nor, readsAB, fun _ a b => ~~~(a ||| b)⟩,
   ⟨0x046, .sll, readsAB, fun _ a b => a <<< (b.toNat % 32)⟩,
   ⟨0x047, .srl, readsAB, fun _ a b => a >>> (b.toNat % 32)⟩,
   ⟨0x048, .sra, readsAB, fun _ a b => a.sshiftRight (b.toNat % 32)⟩,
   ⟨0x049, .slli, readsA, fun w a _ => a <<< shiftN w⟩,
   ⟨0x04A, .srli, readsA, fun w a _ => a >>> shiftN w⟩,
   ⟨0x04B, .srai, readsA, fun w a _ => a.sshiftRight (shiftN w)⟩,
   ⟨0x04C, .seq, readsAB, fun _ a b => oneIf (decide (a = b))⟩,
   ⟨0x04D, .sne, readsAB, fun _ a b => oneIf (decide (a ≠ b))⟩,
   ⟨0x04E, .slt, readsAB, fun _ a b => oneIf (decide (a.toInt < b.toInt))⟩,
   ⟨0x04F, .sltu, readsAB, fun _ a b => oneIf (decide (a.toNat < b.toNat))⟩,
   ⟨0x050, .sle, readsAB, fun _ a b => oneIf (decide (a.toInt ≤ b.toInt))⟩,
   ⟨0x051, .sleu, readsAB, fun _ a b => oneIf (decide (a.toNat ≤ b.toNat))⟩,
   ⟨0x058, .sextb, readsA, fun _ a _ => (a.truncate 8).signExtend 32⟩,
   ⟨0x059, .sexth, readsA, fun _ a _ => (a.truncate 16).signExtend 32⟩] ++
  [⟨0x200, .addi, readsA, fun w a _ => a + (imm16 w).signExtend 32⟩,
   ⟨0x240, .andi, readsA, fun w a _ => a &&& (imm16 w).zeroExtend 32⟩,
   ⟨0x280, .ori, readsA, fun w a _ => a ||| (imm16 w).zeroExtend 32⟩,
   ⟨0x2C0, .xori, readsA, fun w a _ => a ^^^ (imm16 w).zeroExtend 32⟩,
   ⟨0x300, .slti, readsA, fun w a _ => oneIf (decide (a.toInt < (imm16 w).toInt))⟩,
   ⟨0x340, .sltiu, readsA, fun w a _ => oneIf (decide (a.toNat < ((imm16 w).signExtend 32).toNat))⟩,
   ⟨0x380, .seqi, readsA, fun w a _ => oneIf (decide (a = (imm16 w).signExtend 32))⟩,
   ⟨0x3C0, .lui, noReads, fun w _ _ => (imm16 w).zeroExtend 32 <<< 16⟩,
   ⟨0x0C5, .fneg, readsA, fun _ a _ => a ^^^ 0x80000000⟩,
   ⟨0x0C6, .fabs, readsA, fun _ a _ => a &&& 0x7FFFFFFF⟩]

/-- An instruction that reads or writes CY: what it writes to gd, if anything, and to CY, from ga, gb and CY. -/
structure CarryRow where
  code  : Nat
  instr : Word → Instr
  reads : Word → List (BitVec 5)
  value : Word → Word → Bool → Option Word
  carry : Word → Word → Bool → Bool

/-- CY as a number. -/
def cyNat (c : Bool) : Nat := if c then 1 else 0

/-- The carry instructions (R316). -/
def carryRows : List CarryRow :=
  [⟨0x052, .addc, readsAB, fun a b c => some (a + b + BitVec.ofNat 32 (cyNat c)),
      fun a b c => decide (2 ^ 32 ≤ a.toNat + b.toNat + cyNat c)⟩,
   ⟨0x053, .subc, readsAB, fun a b c => some (a - b - BitVec.ofNat 32 (cyNat c)),
      fun a b c => decide (a.toNat < b.toNat + cyNat c)⟩,
   ⟨0x054, .addcz, readsAB, fun a b _ => some (a + b), fun a b _ => decide (2 ^ 32 ≤ a.toNat + b.toNat)⟩,
   ⟨0x055, .subcz, readsAB, fun a b _ => some (a - b), fun a b _ => decide (a.toNat < b.toNat)⟩,
   ⟨0x056, .rdcy, noReads, fun _ _ c => some (oneIf c), fun _ _ c => c⟩,
   ⟨0x057, .wrcy, readsA, fun _ _ _ => none, fun a _ _ => a.getLsbD 0⟩]

/-- gd written, where there is something to write. -/
def writeOpt (t : State) (r : BitVec 5) (v : Option Word) : State :=
  match v with
  | some v => setGpr t r v
  | none => t

/-- An operation of an iterative unit: its unit, what it writes and its latency, from its word, ga and gb. -/
structure UnitRow where
  code    : Nat
  instr   : Word → Instr
  kind    : FlightKind
  writes  : Word → Word → Word → List (BitVec 5 × Word)
  latency : Word → Word → Nat

/-- The low and the high word of a 64-bit result, in gd and gd + 1. -/
def wordPair (w : Word) (v : BitVec 64) : List (BitVec 5 × Word) :=
  [(rd w, v.truncate 32), (rd w + 1, (v >>> 32).truncate 32)]

/-- Quotient and remainder in gd and gd + 1; those of a division by 0 are all ones and the dividend (R320). -/
def divPair (w a b : Word) (q r : Int) : List (BitVec 5 × Word) :=
  if b = 0 then [(rd w, 0xFFFFFFFF), (rd w + 1, a)] else [(rd w, BitVec.ofInt 32 q), (rd w + 1, BitVec.ofInt 32 r)]

/-- L(x): 0 for 0, otherwise one more than the position of the highest 1. -/
def lenOf (n : Nat) : Nat := if n = 0 then 0 else Nat.log2 n + 1

/-- The multiply and divide group (R319, R321). -/
def unitRows : List UnitRow :=
  [⟨0x080, .mul, .mul, fun w a b => [(rd w, a * b)], fun _ b => 2 + (lenOf b.toNat + 7) / 8⟩,
   ⟨0x081, .mulw, .mul, fun w a b => wordPair w (a.signExtend 64 * b.signExtend 64),
      fun _ b => 2 + (lenOf b.toInt.natAbs + 7) / 8⟩,
   ⟨0x082, .mulwu, .mul, fun w a b => wordPair w (a.zeroExtend 64 * b.zeroExtend 64),
      fun _ b => 2 + (lenOf b.toNat + 7) / 8⟩,
   ⟨0x083, .div, .div, fun w a b => divPair w a b (a.toInt.tdiv b.toInt) (a.toInt.tmod b.toInt),
      fun a b => if b = 0 then 3 else 4 + (lenOf a.toInt.natAbs + 1 - lenOf b.toInt.natAbs + 1) / 2⟩,
   ⟨0x084, .divu, .div, fun w a b => divPair w a b (a.toNat / b.toNat) (a.toNat % b.toNat),
      fun a b => if b = 0 then 3 else 3 + (lenOf a.toNat + 1 - lenOf b.toNat + 1) / 2⟩]

/-- An FPU instruction: its unit, latency, the registers it reads, its result from FCSR.RM, ga and gb, and which
operands count as subnormal. -/
structure FpuRow where
  code    : Nat
  instr   : Word → Instr
  kind    : FlightKind
  latency : Nat
  reads   : Word → List (BitVec 5)
  result  : Nat → Word → Word → FResult
  subs    : Word → Word → Nat

def subsAB (a b : Word) : Nat := (if fIsSub a then 1 else 0) + if fIsSub b then 2 else 0
def subsA (a _ : Word) : Nat := if fIsSub a then 1 else 0
def noSubs (_ _ : Word) : Nat := 0

/-- The FPU group but FNEG and FABS (R346, R353). -/
def fpuRows : List FpuRow :=
  [⟨0x0C0, .fadd, .fpu, 3, readsAB, fpAdd, subsAB⟩,
   ⟨0x0C1, .fsub, .fpu, 3, readsAB, fpSub, subsAB⟩,
   ⟨0x0C2, .fmul, .fpu, 3, readsAB, fpMul, subsAB⟩,
   ⟨0x0C3, .fdiv, .slow, 12, readsAB, fpDiv, subsAB⟩,
   ⟨0x0C4, .fsqrt, .slow, 14, readsA, fun rm a _ => fpSqrt rm a, subsA⟩,
   ⟨0x0C7, .feq, .fpu, 1, readsAB, fun _ a b => fpEq a b, subsAB⟩,
   ⟨0x0C8, .flt, .fpu, 1, readsAB, fun _ a b => fpLt a b, subsAB⟩,
   ⟨0x0C9, .fle, .fpu, 1, readsAB, fun _ a b => fpLe a b, subsAB⟩,
   ⟨0x0CA, .fun_, .fpu, 1, readsAB, fun _ a b => fpUn a b, subsAB⟩,
   ⟨0x0CB, .fcvtWS, .fpu, 2, readsA, fun rm a _ => fpToInt rm (-2147483648) 2147483647 a, subsA⟩,
   ⟨0x0CC, .fcvtWzS, .fpu, 2, readsA, fun _ a _ => fpToInt 1 (-2147483648) 2147483647 a, subsA⟩,
   ⟨0x0CD, .fcvtWuS, .fpu, 2, readsA, fun rm a _ => fpToInt rm 0 4294967295 a, subsA⟩,
   ⟨0x0CE, .fcvtSW, .fpu, 2, readsA, fun rm a _ => fpOfInt rm a.toInt, noSubs⟩,
   ⟨0x0CF, .fcvtSWu, .fpu, 2, readsA, fun rm a _ => fpOfInt rm a.toNat, noSubs⟩]

/-- The result with DN raised where an operand is subnormal (R375). -/
def fpuOutcome (e : FpuRow) (u : State) (a b : Word) : FResult :=
  let r := e.result (bits u.plt.fcsr 17 16) a b
  if e.subs a b ≠ 0 then { r with flags := r.flags ||| fDN } else r

/-- A load of the I format: its size, how it extends what it reads, and whether it reserves its block. -/
structure LoadRow where
  code  : Nat
  instr : Word → Instr
  size  : Nat
  ext   : Nat → Word
  excl  : Bool

/-- The loads (R326, R329). -/
def loadRows : List LoadRow :=
  [⟨0x400, .lb, 1, fun v => (BitVec.ofNat 8 v).signExtend 32, false⟩,
   ⟨0x440, .lbu, 1, fun v => BitVec.ofNat 32 v, false⟩,
   ⟨0x480, .lh, 2, fun v => (BitVec.ofNat 16 v).signExtend 32, false⟩,
   ⟨0x4C0, .lhu, 2, fun v => BitVec.ofNat 32 v, false⟩,
   ⟨0x500, .lw, 4, fun v => BitVec.ofNat 32 v, false⟩,
   ⟨0x540, .lwx, 4, fun v => BitVec.ofNat 32 v, true⟩]

/-- A store of the S format and its size. -/
structure StoreRow where
  code  : Nat
  instr : Word → Nat → Instr
  size  : Nat

/-- The stores (R326). -/
def storeRows : List StoreRow := [⟨0x600, .sb, 1⟩, ⟨0x640, .sh, 2⟩, ⟨0x680, .sw, 4⟩]

/-- The access that a load or a store makes at the current level (R359). -/
def access (t : State) (wr excl : Bool) : Access :=
  { level := t.plt.pl.toNat, wr := wr, excl := excl, block := false, open_ := false }

/-- The effective address of an I or S format (R326). -/
def effAddr (t : State) (w : Word) : Word := gprAt t (ra w) + (imm16 w).signExtend 32

/-- Byte offset of a B or J format. -/
def branchOff (w : Word) : Word := 4 * ((w.truncate 21).signExtend 32 : Word)
def jumpOff (w : Word) : Word := 4 * ((w.truncate 26).signExtend 32 : Word)

/-- k PCLK of stall pass, and the instruction issues: results in flight come as much nearer, loads from Bank 0 by the
one instruction (R348, R349, R355). -/
def issued (t : State) (k : Nat) : State := age (agePclk t k)

/-- A block instruction's step is made: its accesses leave v, k PCLK of stall pass, its register updates are written
together, and with bytes left, or an interrupt waiting, the instruction stays, else it ends and counts as issued
(R339, R341, R349). -/
def stepMade (v : State) (w left : Word) (k : Nat) (l : List (BitVec 5 × Word)) : State :=
  if left ≠ 0 ∨ (takeDue v true).isSome then
    let u := setGprs (agePclk (agePclk v k) 1) l
    { u with plt := { u.plt with fq := w :: u.plt.fq } }
  else inSequence (setGprs (issued v k) l)

/-- n bytes at a lie in Bank 0 outside the return stack, over words without damage. -/
abbrev InBankZero (s : State) (a n : Nat) : Prop :=
  a + n ≤ 0x7C0000 ∧ ∀ x ∈ wordsOf (bankAddr 0 a) n, damageAt s x = none

/-- From p to v nothing changed but memory and the reservation, and memory only in the bytes bs at Bank 0 address a. -/
abbrev StoredInBankZero (p v : State) (a : Nat) (bs : List Byte) : Prop :=
  v = { p with mem := v.mem, plt := { p.plt with resv := v.plt.resv } } ∧
    ∀ x, memByte v x = if bankAddr 0 a ≤ x ∧ x < bankAddr 0 a + bs.length then bs.getD (x - bankAddr 0 a) 0 else memByte p x

/-- Entry to level n (R366), from a state in which the waits of R325 and R350 have ended. -/
def entered (t : State) (n : Nat) (savePc cause val : Word) (interrupt : Bool) : State :=
  let x : SaveSet := { pc := savePc, st := stWord t, rsp := t.plt.rsp, cause := cause, val := val }
  { t with
    plt := { t.plt with
      save1 := if n = 1 then x else t.plt.save1
      save2 := if n = 2 then x else t.plt.save2
      save3 := if n = 3 then x else t.plt.save3
      pl := BitVec.ofNat 2 n
      ie := false
      resv := none
      pc := (t.plt.vbase &&& 0xFFFFF000) + BitVec.ofNat 32 (0x100 * n + if interrupt then 0x80 else 0)
      fq := []
      idle := false }
    dbg := { t.dbg with skipIbp := false } }

/-- SAVE_CAUSE of a synchronous exception: CODE, DETAIL, WR and HALF2 (R360, R370). -/
def causeBits (code detail : Nat) (wr half2 : Bool) : Word :=
  BitVec.ofNat 32 (code + 256 * detail + (if wr then 2 ^ 29 else 0) + if half2 then 2 ^ 30 else 0)

/-- The instruction at pc raises an exception at t: below level 3 it is taken one level higher, with SAVE_PC on the
instruction; at level 3 the Pilots freeze as they stand, HEALTHY falls and the Warden holds the module (R364, R370). -/
abbrev Raises (t : State) (r : Result) (code detail : Nat) (wr half2 : Bool) (val : Word) : Prop :=
  (t.plt.pl ≠ 3 →
    r = .next (entered (drained t) (t.plt.pl.toNat + 1) t.plt.pc (causeBits code detail wr half2) val false)) ∧
  (t.plt.pl = 3 → ∃ u, r = .next u ∧ u.plt = { t.plt with frozen := true } ∧ u.wdn.held = true ∧ u.wdn.healthy = false ∧
    u.mem = t.mem ∧ u.arr = t.arr)

/-- One of the DETAILs l that apply: where more than one do, or none is named, a free value is used up. -/
def afterDetail (t : State) (l : List Nat) : State := if l.length = 1 then t else { t with free := t.free + 1 }

/-- Save set n of levels 1 to 3. -/
def savedAt (t : State) (n : Nat) : SaveSet := if n = 1 then t.plt.save1 else if n = 2 then t.plt.save2 else t.plt.save3

/-- The value of special register n (R308, R309, R310, R347). -/
def specialReg (t : State) (n : Nat) : Word :=
  match n with
  | 0 => (if t.plt.cy then 0x100 else 0) + (if t.plt.ie then 8 else 0) + BitVec.ofNat 32 t.plt.pl.toNat
  | 1 => t.plt.rsp
  | 2 => t.plt.rslo
  | 3 => t.plt.rshi
  | 4 => t.plt.fcsr
  | 5 => t.plt.vbase
  | 6 => t.plt.cyc.truncate 32
  | 7 => t.plt.cycHi
  | 8 => 0x0100003F
  | 9 => 0x40081008
  | 10 => 0x03E84424
  | 11 => (if t.plt.survivor then 0x200 else 0) + (if t.plt.solo then 0x100 else 0)
  | 12 => t.plt.save1.pc | 13 => t.plt.save1.st | 14 => t.plt.save1.rsp | 15 => t.plt.save1.cause | 16 => t.plt.save1.val
  | 17 => t.plt.save2.pc | 18 => t.plt.save2.st | 19 => t.plt.save2.rsp | 20 => t.plt.save2.cause | 21 => t.plt.save2.val
  | 22 => t.plt.save3.pc | 23 => t.plt.save3.st | 24 => t.plt.save3.rsp | 25 => t.plt.save3.cause | 26 => t.plt.save3.val
  | _ => 0

/-- Special register n written (R308, R310): ST takes CY and IE, FCSR its defined bits, and a register that is not
writable ignores it. -/
def withSpecialReg (t : State) (n : Nat) (v : Word) : State :=
  { t with plt := { t.plt with
      cy := if n = 0 then v.getLsbD 8 else t.plt.cy
      ie := if n = 0 then v.getLsbD 3 else t.plt.ie
      rsp := if n = 1 then v else t.plt.rsp
      rslo := if n = 2 then v else t.plt.rslo
      rshi := if n = 3 then v else t.plt.rshi
      fcsr := if n = 4 then v &&& 0x00033F3F else t.plt.fcsr
      vbase := if n = 5 then v else t.plt.vbase
      save1 := if 12 ≤ n ∧ n ≤ 16 then t.plt.save1.put (n - 12) v else t.plt.save1
      save2 := if 17 ≤ n ∧ n ≤ 21 then t.plt.save2.put (n - 17) v else t.plt.save2
      save3 := if 22 ≤ n ∧ n ≤ 26 then t.plt.save3.put (n - 22) v else t.plt.save3 } }

/-- One bit of the reflected CRC-32C. -/
def crcShift (c : Word) : Word := (c >>> 1) ^^^ if c.getLsbD 0 then 0x82F63B78 else 0

/-- The crc8 of R339 over several bytes. -/
def crcBytes (c : Word) : List Byte → Word
  | [] => c
  | b :: t => crcBytes (crcShift (crcShift (crcShift (crcShift (crcShift (crcShift (crcShift (crcShift
      (c ^^^ b.zeroExtend 32))))))))) t

/-- The commands of all Pilot instructions. -/
def pilotInstrs : List (Word → Instr) :=
  aluRows.map (·.instr) ++ carryRows.map (·.instr) ++ unitRows.map (·.instr) ++ fpuRows.map (·.instr) ++
  loadRows.map (·.instr) ++ storeRows.map (fun e w => e.instr w 0) ++
  [fun w => .swc w 0 false, .bez, .bnz, .j, .call, .jr, .callr, .ret, .mfs, .mts, .rte, .trap, .brk, .idle, .syncI,
   .waitu, .rsld, .rsst, fun w => .bmove w 0, fun w => .bfill w 0, .bcrc]

/-! ## Microwords -/

/-- The microword m of the running kernel k issues at s: the kernel may issue, no debug halt but a STEP holds it, the
word keeps its parity (R117), SEQ is defined (R78), the micro-return stack takes it (R80), and no stall holds it
(R64). -/
abbrev Issues (s : State) (k : KernelCtx) (m : Micro) : Prop :=
  mayIssue s = some k ∧ (s.helm.dbgHalt = true → s.helm.dbgStep = true) ∧ parityFails s k = false ∧ fetched s k = m ∧
    1 ≤ m.seq ∧ m.seq ≤ 7 ∧ stackFails k m = false ∧ stalled s k m = false

/-- The latches of one PE. -/
structure PeLatches where
  c : Bool
  d : Bool
  x : Bool
  m : Bool
  q : Bool
  deriving DecidableEq, Repr

/-- What reaches one PE in a microword: ports A and B, XIN and the buses. -/
structure PeInputs where
  p   : Bool
  b   : Bool
  xin : Bool
  row : Bool
  col : Bool
  deriving DecidableEq, Repr

/-- The latches of PE n. -/
def latchesAt (s : State) (n : Nat) : PeLatches :=
  ⟨s.arr.c.getLsbD n, s.arr.d.getLsbD n, s.arr.x.getLsbD n, s.arr.m.getLsbD n, s.arr.q.getLsbD n⟩

/-- S′: the operand that SSEL picks, inverted by SINV (R28). -/
def peSource (w : Micro) (l : PeLatches) (i : PeInputs) : Bool :=
  (match w.ssel with
  | 0 => l.q | 1 => i.b | 2 => l.x | 3 => i.xin | 4 => i.row | 5 => i.col | 6 => l.d | _ => l.c) ^^ w.sinv

/-- T: the operand that TSEL picks. -/
def peThird (w : Micro) (l : PeLatches) : Bool :=
  match w.tsel with | 0 => l.c | 1 => l.d | 2 => l.x | _ => l.m

/-- The adder's carry in (R29). -/
def peCarry (w : Micro) (l : PeLatches) : Bool :=
  match w.cin with | 1 => false | 2 => true | _ => l.c

/-- The adder's carry out: at least two of its three inputs are 1. -/
def peCout (w : Micro) (l : PeLatches) (i : PeInputs) : Bool :=
  decide (2 ≤ i.p.toNat + (peSource w l i).toNat + (peCarry w l).toNat)

/-- F of the boolean unit (R31). -/
def peF (w : Micro) (l : PeLatches) (i : PeInputs) : Bool :=
  w.tt.getLsbD (4 * i.p.toNat + 2 * (peSource w l i).toNat + (peThird w l).toNat)

/-- Y (02, the PE): the sum, F, the carry or XIN. -/
def peY (w : Micro) (l : PeLatches) (i : PeInputs) : Bool :=
  match w.ysel with
  | 0 => decide ((i.p.toNat + (peSource w l i).toNat + (peCarry w l).toNat) % 2 = 1)
  | 1 => peF w l i
  | 2 => peCout w l i
  | _ => i.xin

/-- The latches of one PE after a microword: those that MGATE gates keep their value where M is 0 (R30, R40, R41). -/
def peNext (w : Micro) (l : PeLatches) (i : PeInputs) (stored : Bool) : PeLatches :=
  let y := peY w l i
  let s' := peSource w l i
  let gate (new old : Bool) : Bool := if w.mgate && !l.m then old else new
  { c := gate (match w.ldc with | 1 => peCout w l i | 2 => y | 3 => i.p | _ => l.c) l.c
    d := gate (match w.ldd with | 1 => y | 2 => i.p | 3 => stored | _ => l.d) l.d
    x := gate (match w.ldx with | 1 => y | 2 => i.p | 3 => i.xin | _ => l.x) l.x
    m := match w.ldm with | 1 => y | 2 => i.p | 3 => s' | _ => l.m
    q := gate (match w.ldq with | 1 => y | 2 => i.p | 3 => s' | _ => l.q) l.q }

/-- What a read port delivers, in every PE of a row that is not lost. -/
def delivered (s : State) (r : Source) : Plane :=
  match r with
  | .value v => v
  | .plane n => planeBits s n

/-- Ports A and B ask for different planes of one sub-bank in one ACLK (R43, R65). -/
def portsClash (m : Micro) (a b : Source) : Bool :=
  match a.plane?, b.plane? with
  | some x, some y => decide (m.clen = 1) && decide (x ≠ y) && decide (x % 2 = y % 2)
  | _, _ => false

/-- Port A, and port B, which delivers 0 where the ports clash. -/
def operandA (s : State) (k : KernelCtx) (m : Micro) : Plane := delivered s (readPort s k m.pa 0).1
def operandB (s : State) (k : KernelCtx) (m : Micro) : Plane :=
  if portsClash m (readPort s k m.pa 0).1 (readPort s k m.pb 0).1 then 0 else delivered s (readPort s k m.pb 0).1

/-- The plane reads of a microword's ports, with the ACLK of each (R65). -/
def portReads (s : State) (k : KernelCtx) (m : Micro) : List (Nat × Nat) :=
  ((readPort s k m.pa 0).1.plane?.toList.map fun p => (1, p)) ++
    if portsClash m (readPort s k m.pa 0).1 (readPort s k m.pb 0).1 then []
    else (readPort s k m.pb 0).1.plane?.toList.map fun p => (min 2 m.clen, p)

/-- The cut of a bus: its cut plane's bits under code 1, and none under code 2 or where, below four ACLK, a port reads
that sub-bank in the ACLK of the cut read (R65, R66, R86, R129). -/
def cutTaken (s : State) (k : KernelCtx) (m : Micro) (code cutPlane : Nat) : Plane :=
  if code = 1 ∧ ¬ (m.clen < 4 ∧ ∃ r ∈ portReads s k m, r.1 = min 3 m.clen ∧ r.2 % 2 = cutPlane % 2) then
    planeBits s cutPlane &&& livePes s
  else 0

/-- What a cable bus carries to every PE of a segment, and 0 while it is off. -/
def busBits (s : State) (k : KernelCtx) (m : Micro) (code cutPlane : Nat) (bus : Plane → Plane → Plane) : Plane :=
  if code = 1 ∨ code = 2 then bus (s.arr.x &&& s.arr.m) (cutTaken s k m code cutPlane) else 0

/-- What the PEs see of a bus: all of it from four ACLK on, and below that at least what they drive and at most the bus
(R65). -/
def BusSeen (s : State) (k : KernelCtx) (m : Micro) (code cutPlane : Nat) (bus : Plane → Plane →
  Plane) (seen : Plane) : Prop :=
  ((4 ≤ m.clen ∨ (code ≠ 1 ∧ code ≠ 2)) → seen = busBits s k m code cutPlane bus) ∧
  (∀ n < peCount, (seen.getLsbD n = true → (busBits s k m code cutPlane bus).getLsbD n = true) ∧
    (code = 1 ∨ code = 2 → (s.arr.x &&& s.arr.m).getLsbD n = true → seen.getLsbD n = true))

/-- The flag plane that a microword updates, if any: in one ACLK the update gives way to a plane write of its sub-bank
(R68, R91). -/
def flagWrite (s : State) (k : KernelCtx) (m : Micro) : Option Nat :=
  if 1 ≤ m.flag ∧ m.flag ≤ 6 ∧ ¬ (m.clen = 1 ∧ ∃ w ∈ (writePort s k m.pw).plane, w % 2 = (4071 + m.flag) % 2) then
    some (4071 + m.flag)
  else none

/-- The variable and offset that a microword's probe takes: an OPEN binds it, PROBE and CLOSE find it bound (R88, R89). -/
def probeTaken (s : State) (k : KernelCtx) (m : Micro) : Option (Nat × Nat) :=
  match (writePort s k m.pw).var with
  | some (n, off) => if m.probe = 1 ∨ (m.probe ≠ 0 ∧ ∃ r ∈ k.track, r.desc = n) then some (n, off) else none
  | none => none

/-- A probed write of a signed variable loads D with STORED (R37). -/
def probeLoadsD (s : State) (k : KernelCtx) (m : Micro) : Bool :=
  match probeTaken s k m with
  | some (n, _) => (writePort s k m.pw).plane.isSome && descSigned (descAt s n)
  | none => false

/-- What reaches PE n in microword m, whose buses carry `row` and `col`. -/
def inputsAt (s : State) (k : KernelCtx) (m : Micro) (row col : Plane) (n : Nat) : PeInputs :=
  { p := (operandA s k m).getLsbD n
    b := (operandB s k m).getLsbD n
    xin := (xinOf m.dir s.arr.x (edgeFill s m)).getLsbD n
    row := row.getLsbD n
    col := col.getLsbD n }

/-- COND at issue (R81). -/
def condAtIssue (k : KernelCtx) (cond : Nat) : Bool :=
  if cond = 1 ∨ cond = 3 then k.gor
  else if cond = 2 ∨ cond = 4 then !k.gor
  else if cond = 5 then decide (k.lc0 = 0)
  else if cond = 6 then decide (k.lc0 ≠ 0)
  else if cond = 7 then decide (k.lc1 = 0)
  else if cond = 8 then decide (k.lc1 ≠ 0)
  else true

/-- LOOPn jumps: its decremented counter is not 0 and COND holds (R79). -/
def loopJumps (m : Micro) (seq : Nat) (lc : BitVec 16) (yes : Bool) : Bool :=
  decide (m.seq = seq) && decide (1 < lc.toNat) && yes

/-- The address after a microword (R78, R79). -/
def nextAddress (k : KernelCtx) (m : Micro) (yes : Bool) : BitVec 15 :=
  if (m.seq = 2 ∨ m.seq = 3) ∧ yes = true then m.target
  else if m.seq = 4 ∧ yes = true then k.stack.headD (k.next + 1)
  else if loopJumps m 5 k.lc0 yes || loopJumps m 6 k.lc1 yes then m.target
  else k.next + 1

/-- A loop counter and its index after a microword: an LCLD of this counter stands against its LOOP update (R79,
R83). -/
def counterAfter (m : Micro) (n : Nat) (lc i : BitVec 16) (yes : Bool) (loaded : Nat) : BitVec 16 × BitVec 16 :=
  if m.lcld % 8 ≠ 0 ∧ (m.lcld / 8 = 0 ↔ n = 0) then (BitVec.ofNat 16 loaded, 0)
  else if m.seq = 5 + n ∧ lc ≠ 0 then (lc - 1, if loopJumps m (5 + n) lc yes then i + 1 else i)
  else (lc, i)

/-- The flags of the kernel's trap mask whose planes 4072 to 4077 hold a 1 in some PE (R197). -/
def raisedFlags (s : State) (trap : BitVec 6) : BitVec 6 :=
  BitVec.ofNat 6 (((List.range 6).filter fun i =>
    trap.getLsbD i && decide (planeBits s (4072 + i) &&& livePes s ≠ 0)).foldl (fun v i => v + 2 ^ i) 0)

/-- The value of the k-th installation-scope reduction: the OR of the contributions of the members in its sailing, or
their sum, saturated at 21 bits (R144, R455, R456). -/
def installationValue (s : State) (r : Reduction) (k : Nat) : Nat :=
  let l := (s.fry.contrib.filter fun c => decide (c.sail = r.sail) && decide (c.k = k) &&
    decide (c.isCensus = r.slot.isSome) && decide (c.node ∉ excludedIn s r.sail)).map (·.value)
  if r.slot.isSome then min (r.value + l.sum) 2097151 else if r.value ≠ 0 ∨ l.any (fun v => decide (v ≠ 0)) then 1 else 0

/-- The running kernel after a reduction has completed with value v (R87, R137). -/
def withReduction (k : KernelCtx) (r : Reduction) (v : Nat) : KernelCtx :=
  match r.slot with
  | none => { k with gor := decide (v ≠ 0) }
  | some n => { k with slots := k.slots.set n.toNat (BitVec.ofNat 21 v) n.isLt }

/-- From s to t something outstanding has completed: at least `due` ACLK have passed since the last landing (R111), and
neither the array, memory, the descriptors, the queues of kernels nor the other units have changed. -/
abbrev Completed (s t : State) (due : Nat) : Prop :=
  t.helm.gap = max s.helm.gap due ∧ t.arr = s.arr ∧ t.mem = s.mem ∧ t.helm.desc = s.helm.desc ∧
    t.helm.nq = s.helm.nq ∧ t.helm.uq = s.helm.uq ∧ t.ldr = s.ldr ∧ t.ttb = s.ttb ∧ t.que = s.que ∧ t.plt = s.plt

/-- The context with which a kernel starts (R84, R105). -/
def freshContext (r : KernelReq) : KernelCtx :=
  { req := r, next := r.entry, upc := 0, lc0 := 0, lc1 := 0, i0 := 0, i1 := 0, stack := [], gor := false,
    slots := Vector.replicate 16 0, track := none, fpev := false, ended := false, stop := false, halt := none }

/-! ## Transfers, ticks and registers -/

/-- Byte offset within SPACE of the byte that holds, or begins, element (j, i) of a window (R212). -/
def elementOffset (x : Xfer) (j i : Nat) : Nat :=
  if x.cont = 0 then x.addr + j * x.pitch + i / 8
  else if x.map = 0 then x.addr + j * x.pitch + i * x.size
  else if x.map = 1 then x.addr + j * x.sy * x.pitch + i * x.sx * x.size
  else x.addr + (j / x.th * x.pitch + i / x.tw * x.tw * x.th * x.size) + j % x.th * x.tw * x.size + i % x.tw * x.size

/-- The number in the container of element (j, i) (R211, R212). -/
def elementValue (s : State) (x : Xfer) (j i : Nat) : Nat :=
  let a := x.base + elementOffset x j i
  if x.cont = 0 then (memByte s a).toNat / 2 ^ (i % 8) % 2 else numOf (memBytes s a x.size)

/-- Bit k of what element (j, i) loads: a container bit, or the extension (R214). -/
def elementBit (s : State) (x : Xfer) (signed : Bool) (j i k : Nat) : Bool :=
  let n := if x.cont = 0 then 1 else 8 * x.size
  if k < n then (elementValue s x j i).testBit k else signed && (elementValue s x j i).testBit (n - 1)

/-- Bit k of plane `base` + k of a variable read with extension in PE n (R77, R160); of an absolute transfer, plane
target + k. -/
def sourceBit (s : State) (x : Xfer) (k n : Nat) : Bool :=
  let d := descAt s x.target
  (livePes s).getLsbD n &&
  if x.abs then (planeBits s (x.target + k)).getLsbD n
  else if k < descLw d then (planeBits s (descBase d + k)).getLsbD n
  else descSigned d && decide (0 < descLw d) && (planeBits s (descBase d + descLw d - 1)).getLsbD n

/-- Bit k of the container that PE n stores (R215). -/
def storedBit (s : State) (x : Xfer) (w : Nat) (signed : Bool) (k n : Nat) : Bool :=
  let top := min w (if x.cont = 0 then 1 else 8 * x.size)
  if k < top then sourceBit s x k n else signed && sourceBit s x (top - 1) n

/-- The window lies on the array and moves something, to or from memory that needs no network and has no damage. -/
abbrev PlainTransfer (s : State) (x : Xfer) : Prop :=
  x.cont ≤ 4 ∧ x.map ≤ 2 ∧ (x.cont = 0 → x.map = 0) ∧ x.space ≤ 1 ∧ 0 < x.h ∧ 0 < x.wn ∧ x.r0 + x.h ≤ 1024 ∧
    x.c0 + x.wn ≤ 1024 ∧
    (x.abs = true → 0 < x.count ∧ x.target + x.count ≤ 4096) ∧
    (x.abs = false → descValid (descAt s x.target) = true ∧ descBad (descAt s x.target) = false) ∧
    s.mem.damage = [] ∧ s.arr.damage = []

/-- Bits of memory that element (j, i) takes, from its first byte's address: one of a bit container, or its bytes. -/
def elementBits (x : Xfer) (j i : Nat) : Nat × Nat :=
  if x.cont = 0 then (8 * elementOffset x j i + i % 8, 1) else (8 * elementOffset x j i, 8 * x.size)

/-- No two elements of the window share a bit of memory. -/
def ElementsApart (x : Xfer) : Prop :=
  ∀ j < x.h, ∀ i < x.wn, ∀ j' < x.h, ∀ i' < x.wn, (j ≠ j' ∨ i ≠ i') →
    let a := elementBits x j i
    let b := elementBits x j' i'
    a.1 + a.2 ≤ b.1 ∨ b.1 + b.2 ≤ a.1

/-- Nothing is ordered for the next tick. -/
abbrev NoOrders (s : State) : Prop := s.wdn.orders = [] ∧ s.wdn.benchFirst = false

/-- A word with the bits of a mask replaced. -/
def maskWrite (old new mask : Word) : Word := (old &&& ~~~mask) ||| (new &&& mask)

/-- The flit b answers a received one (R429): ACK, NAK and the credits owed stand in their places, over a good CRC. -/
def AnswerFlit (b : BitVec 2048) (ack : Byte) (nak : Bool) (owed : List Nat) : Prop :=
  b.extractLsb' 16 8 = ack ∧ b.extractLsb' 24 8 = (if nak then 1 else 0) ∧
    (owed.length = 4 → (∀ i < 4, b.extractLsb' (32 + 16 * i) 16 = BitVec.ofNat 16 (owed.getD i 0)) ∧
      crc32c (bytesOf b.toNat 252) = (b >>> 2016).truncate 32)

/-! ## Queue pairs -/

/-- The completion entry of R289 as one number of 128 bits. -/
def completionEntry (sail : Sail) (cid : BitVec 16) (sqhd sc ustat pass : Nat) (tt phase : Bool) (result : Word) : Nat :=
  sail.toNat + 2 ^ 48 * cid.toNat + 2 ^ 64 * (sqhd % 65536) + 2 ^ 80 * (sc % 256) +
    2 ^ 88 * (ustat % 16 + 16 * min pass 3 + (if tt then 64 else 0) + if phase then 128 else 0) + 2 ^ 96 * result.toNat

/-- A completion entry stands at the CQ tail of pair q, and the tail has moved on (R274, R278, R289): a posted write
to host memory with the client's PASID and Relaxed Ordering clear, followed by the pair's signal; a write to module DRAM,
of which the client's node is told; or two words of the CQ block. -/
def CqWritten (s t : State) (q : Nat) (entry : Nat) : Prop :=
  let p := pairOf s q
  (p.ctype.toNat < 2 → ∃ more, t.out = s.out ++ Out.hostWrite (if p.ctype = 1 then some p.client else none)
      ((p.cqBase.toNat + 16 * p.cqTail) % 2 ^ 64) (bytesOf entry 16) false false false :: more ∧ more.length ≤ 1) ∧
  (p.ctype = 2 → (∀ i < 16, memByte t (p.cqBase.toNat + 16 * p.cqTail + i) = (bytesOf entry 16).getD i 0) ∧
    t.fry = (sendNotice s (BitVec.ofNat 16 p.client.toNat) q).fry) ∧
  (p.ctype = 3 → (blockQ t (cqBlockOf s p.client.toNat)).words = (blockQ s (cqBlockOf s p.client.toNat)).words ++
      [(BitVec.ofNat 72 (entry % 2 ^ 64), true), (BitVec.ofNat 72 (entry / 2 ^ 64), true)]) ∧
  (pairOf t q).cqTail = (if p.cqTail + 1 = p.cqSize then 0 else p.cqTail + 1) ∧
  (pairOf t q).phase = (p.phase ^^ decide (p.cqTail + 1 = p.cqSize)) ∧
  (pairOf t q).cqHead = p.cqHead ∧ (pairOf t q).sqHead = p.sqHead ∧ (pairOf t q).st = p.st

/-- Descriptor d of pair q, at position pos, has work that finishes, and its completion may be written: nothing silences
it, and for a NODE pair the write lands (R278, R299 to R301). -/
abbrev Awaits (s : State) (q : BitVec 16) (pos : Nat) (d : Dispatched) (entry : Nat) : Prop :=
  (pairOf s q.toNat).disp.find? (fun x => decide (x.pos = pos)) = some d ∧ d.silent = false ∧
    (pairOf s q.toNat).st = .active ∧ s.wdn.held = false ∧ s.que.d3 = false ∧ opensPair d.raw = false ∧
    setsIrq d.raw = false ∧
    ((pairOf s q.toNat).ctype = 2 →
      (nocWrite s 11 ((pairOf s q.toNat).cqBase.toNat + 16 * (pairOf s q.toNat).cqTail) (bytesOf entry 16) []).2 = .ok)

/-- From s to t descriptor pos of pair q has finished with a status: its CQ slot is no longer reserved, and its
completion is written, unless NOCPL meets OK (R278, R279, R289). -/
def Finished (s t : State) (q : BitVec 16) (pos sc ustat : Nat) (result : Word) : Prop :=
  ∀ d,
    let p := pairOf s q.toNat
    let entry := completionEntry s.ttb.sail (cidOf d.raw) p.sqHead sc ustat s.ttb.pass false p.phase result
    Awaits s q pos d entry →
      (pairOf t q.toNat).disp = p.disp.filter (fun x => decide (x.pos ≠ pos)) ∧
      (isNocpl d.raw = true → sc = 0 → t.out = s.out ∧ (pairOf t q.toNat).cqTail = p.cqTail) ∧
      ((isNocpl d.raw = false ∨ sc ≠ 0) → CqWritten s t q.toNat entry)

/-- Entry e stands at index idx of the running pass, its unit has it, and the unit's report counts (R245, R254, R255). -/
abbrev AwaitsUnit (s : State) (sail : Sail) (pass idx : Nat) (e : Entry) : Prop :=
  sail = s.ttb.passSail ∧ pass = s.ttb.pass ∧ s.ttb.cut = false ∧ s.wdn.held = false ∧ entryAt s idx = some e ∧
    (estAt s idx).state = .submitted

/-- From s to t entry e, at index idx, has ended DONE or FAILED with its unit's status, and its completion, under CPL,
waits to be posted (R248, R254, R255, R290). -/
def EntryEnded (s t : State) (idx : Nat) (e : Entry) (ok : Bool) (ustat : BitVec 4) : Prop :=
  (estAt t idx).state = (if ok then .done else .failed) ∧ (estAt t idx).ustat = ustat ∧ (estAt t idx).doneAt = s.now ∧
    ∃ more, t.ttb.outq = s.ttb.outq ++
      (if e.cpl then [⟨e.cqp, e.tag, idx, if ok then 0 else 7, ustat, none, true⟩] else []) ++ more

/-- From s to t a kernel's status has gone to its submitter (R107, R254, R278, R282): firmware finds KID and status in a
list (log entry 158), an entry of the running pass ends, and a descriptor's completion carries census slot 0. -/
def KernelReported (s t : State) (k : KernelReq) (status : BitVec 4) (slot0 : Word) : Prop :=
  match k.owner with
  | .firmware => t.helm.told = s.helm.told ++ [(k.kid, status)]
  | .timetable sail pass idx => t.helm.told = s.helm.told ∧
      ∀ e, AwaitsUnit s sail pass idx e → EntryEnded s t idx e (decide (status = 0 ∨ status = 6)) status
  | .queue q pos => t.helm.told = s.helm.told ∧ Finished s t q pos (if status = 0 ∨ status = 6 then 0 else 7) status.toNat slot0

/-- From s to t a transfer's status has gone to its submitter (R216, R222, R255, R282): firmware gets its interrupt, an
entry of the running pass ends, unless the transfer was discarded, and a descriptor's completion carries XID. -/
def TransferReported (s t : State) (tr : Transfer) (status : BitVec 4) : Prop :=
  match tr.owner with
  | .firmware => t.plt.ldrReq = true
  | .timetable sail pass idx => status ≠ 6 →
      ∀ e, AwaitsUnit s sail pass idx e → EntryEnded s t idx e (decide (status = 0)) status
  | .queue q pos => Finished s t q pos (if status = 0 then 0 else if status = 5 then 9 else if status = 6 then 10 else 7)
      status.toNat (BitVec.ofNat 32 (Xfer.of tr.blk).xid)

/-- The descriptor f, sound and with an OPC that may stand on pair q, may be dispatched from it now (R279–R281). -/
abbrev Dispatches (s : State) (q : BitVec 16) (opc : Nat) (f : Fetched) : Prop :=
  readyHead s q.toNat = some f ∧ f.bad = false ∧ opcOf f.raw = opc ∧
    opcAllowed opc q.toNat (pairOf s q.toNat).ctype = true

/-- The oldest descriptor f of pair q is dispatched to some work, which holds a CQ slot. -/
def dispatched (s : State) (q : BitVec 16) (f : Fetched) (w : Work) : State :=
  let p := pairOf s q.toNat
  setPair s q.toNat { p with fetched := p.fetched.tail, disp := p.disp ++ [⟨f.pos, f.raw, w, false⟩] }

/-- The oldest descriptor f of pair q finishes at once with a status and a result. -/
def finished (s : State) (q : BitVec 16) (f : Fetched) (sc : Nat) (result : Word) : State :=
  complete (dispatched s q f .unit) q.toNat f.pos sc 0 result

/-- The argument block of a descriptor. -/
def argBlock (d : Raw64) : Block32 := BitVec.ofNat 256 (rawField d 16 32)

/-- The commands of the descriptors other than ADMIN, with their OPC. -/
def unitCommands (q : BitVec 16) (resp : HostRead) (n : List Nat) : List (Nat × Instr) :=
  [(1, .kernel q), (2, .move q resp n), (3, .planeLoad q), (4, .planeStore q), (5, .timetableBind q), (6, .fence q),
   (7, .mailbox q), (8, .linkSend q resp)]

/-- A doorbell that is refused sets its bit of QUE_ERR and counts (R275–R277). -/
def doorbellRefused (s : State) (k : Nat) : State :=
  setReg (setReg s Reg.queErr (setBit (reg s Reg.queErr) k true)) Reg.queDberr
    (BitVec.ofNat 32 (min ((reg s Reg.queDberr).toNat + 1) 0xFFFFFFFF))

/-- A host or PASID pair's ring entries, or no entry. -/
def hostEntries (bs : List Byte) (n : Nat) : List (Raw64 × Bool) :=
  (List.range n).map fun i => (BitVec.ofNat 512 (numOf ((bs.drop (64 * i)).take 64)), false)

/-- Pair p after a fetch of the entries l, of which no held one finds the hold list full (R294). -/
def fetchedInto (p : Pair) (l : List (Raw64 × Bool)) : Pair :=
  { p with
    fetched := p.fetched ++ l.zipIdx.map fun e => ⟨p.taken + e.2, e.1.1, e.1.1.getLsbD 8, e.1.2⟩
    taken := p.taken + l.length
    sqHead := (p.sqHead + l.length) % p.sqSize }

/-! ## Registers -/

/-- A register whose write is no operation of its own. -/
def PlainReg (off : Nat) : Prop :=
  off % 4 = 0 ∧ off < 0x4000000 ∧ inDebugWindow off = false ∧
    ∀ (s : State) (wr : Writer) (v : Word), actWrite s wr off v = none

/-- A writer's request reaches the register's unit over the network, which counts it (R410, R419). -/
def requestAt (s : State) (wr : Writer) (off : Nat) : State := (nocGate s (writerNi wr) (regAddr off)).1

/-- A write of the register at `off` takes effect: the writer's path reaches the unit, the module is not held against
it, and its level suffices (R25, R300, R359, R565). -/
abbrev WriteLands (s : State) (wr : Writer) (off : Nat) : Prop :=
  plainMay s wr off = true ∧ (wr = .pilot → pilotsRun s = true)

/-- A read of the register at `off` is answered by its unit. -/
abbrev ReadLands (s : State) (wr : Writer) (off : Nat) : Prop :=
  inDebugWindow off = false ∧ s.hx1 = true ∧ reachesUnit s wr off = true ∧ (wr = .host → s.wdn.held = false) ∧
    (wr = .pilot → pilotsRun s = true ∧ (s.plt.pl ≠ 0 ∨ off / 0x100000 = 0)) ∧
    (wr = .debug → debugLevel s ≠ 0) ∧ (wr = .fabric → anyRuns s = true)

/-- Bit i of a field after a write of v over w (00, Access types; R4). -/
def fieldBit (f : Field) (v w : Word) (i : Nat) : Bool :=
  match f.acc with
  | .rw => if f.bad.any (fun r => decide (r.1 ≤ bits v f.hi f.lo ∧ bits v f.hi f.lo ≤ r.2)) then w.getLsbD i else v.getLsbD i
  | .w1c => w.getLsbD i && !v.getLsbD i
  | .w1cAll => w.getLsbD i && decide (bits v f.hi f.lo = 0)
  | .rc => w.getLsbD i

/-- A write of v places a reserved encoding in some field that the writer may change. -/
def placesReserved (wr : Writer) (off : Nat) (v : Word) : Bool :=
  (fieldsFor wr off).any fun f =>
    decide (f.acc = .rw) && f.bad.any (fun r => decide (r.1 ≤ bits v f.hi f.lo ∧ bits v f.hi f.lo ≤ r.2))

/-- GLB_ERR after a write by `wr` has placed a reserved encoding in the register at `off` (R24). -/
def glbErrAfter (w : Word) (wr : Writer) (off : Nat) : Word :=
  if w.getLsbD 31 then w ||| 0x40000000
  else (w &&& 0x7C000000) ||| 0x80000000 |||
    let code := match wr with
      | .host => 0
      | .pilot => 1
      | .debug => 2
      | .fabric => Config.fabricWriterCode % 3
    BitVec.ofNat 32 (code * 2 ^ 24 + off / 4 % 2 ^ 24)

/-! ## Routes -/

/-- Code k of a route entry (R411). -/
def portCode (w : Word) (k : Nat) : Nat := (w.toNat % 2 ^ 24 / 8 ^ k) % 8

/-- The codes of a valid route entry lead from the stop of NI src to NI dst: ring codes of one direction, and the spur
last (R411, R413). -/
def routeLeads (src dst : Nat) (w : Word) : Prop :=
  let hops := bits w 27 24
  1 ≤ hops ∧ hops ≤ 8 ∧ ∃ dir < 2, ∃ spur < 4, (∀ k < hops - 1, portCode w k = dir) ∧
    portCode w (hops - 1) = 2 + spur ∧
    niStop dst = (((niStop src).1 + (if dir = 0 then 1 else 10) * (hops - 1)) % 11, spur)

end Sys2Proof.Safety
end

