-- ==== Sys2Proof/Certificates/Slice0/Obligations.lean ====
section
/-!
DEFINITION. The statements for the provers. Each is about every state that meets its hypotheses; a statement of several
clauses covers the commands that its docstring names.
-/
set_option autoImplicit false
open Sys2Proof Sys2Proof.Machine Sys2Proof.Safety

/-! ## The Pilots' instructions -/

/-- R306: g0 reads 0 and discards what is written to it; every other general register reads back what was written,
and a write changes no other register.

R308, R309, R310, R348, R352: MFS writes the special register to gd, and a read of CYC captures CYC_HI; MTS
writes the special register, or nothing where it is not writable. FCSR waits for the FPU.

R336, R366, R370: an MTS to RSP, RSLO or RSHI of a value that is not a multiple of 4 or lies outside the region
raises PROT with DETAIL 5 and changes no register of the three. -/
def Obligations.RegistersKeepWhatIsWritten : Prop :=
  (∀ (s : State) (r q : BitVec 5) (v : Word),
    gprAt s 0 = 0 ∧ setGpr s 0 v = s ∧
    gprAt (setGpr s r v) q = (if q = r ∧ q ≠ 0 then v else gprAt s q) ∧
    setGpr s r v = { s with plt := { s.plt with gpr := (setGpr s r v).plt.gpr } }) ∧
  (∀ (s t : State) (w : Word),
    let u := if rb w = 4 then awaitUnits t isFpu else t
    (Executes s t w 0x100 →
      let v := if rb w = 6 then { u with plt := { u.plt with cycHi := BitVec.ofNat 32 (u.plt.cyc.toNat / 2 ^ 32) } } else u
      exec (.mfs w) s = .next (inSequence (setGpr (age v) (rd w) (specialReg u (rb w).toNat)))) ∧
    (Executes s t w 0x101 → Settled u [ra w] →
      let x := gprAt u (ra w)
      (rb w = 1 ∨ rb w = 2 ∨ rb w = 3 → x.toNat % 4 = 0 ∧ 0x7C0000 ≤ x.toNat ∧ x.toNat ≤ 0x800000) →
      exec (.mts w) s = .next (inSequence (age (withSpecialReg u (rb w).toNat x))))) ∧
  (∀ (s t : State) (w : Word), Executes s t w 0x101 → Settled t [ra w] → t.plt.pl ≠ 3 →
    (rb w = 1 ∨ rb w = 2 ∨ rb w = 3) →
    ((gprAt t (ra w)).toNat % 4 ≠ 0 ∨ (gprAt t (ra w)).toNat < 0x7C0000 ∨ 0x800000 < (gprAt t (ra w)).toNat) →
    exec (.mts w) s = .next (entered (drained t) (t.plt.pl.toNat + 1) t.plt.pc 0x504 (gprAt t (ra w)) false))

/-- R316, R317, R318, R348: an instruction of the ALU group or of the I-format arithmetic writes its result to gd
and nothing else, and goes on at pc + 4; results in flight come one step nearer.

R316, R318: the carry instructions write CY, and gd where they have one. -/
def Obligations.AluInstructionsWriteGdAndCy : Prop :=
  (∀ e ∈ aluRows, ∀ (s t : State) (w : Word), Executes s t w e.code → Settled t (e.reads w) →
    exec (e.instr w) s =
      .next (inSequence (setGpr (age t) (rd w) (e.value w (gprAt t (ra w)) (gprAt t (rb w)))))) ∧
  (∀ e ∈ carryRows, ∀ (s t : State) (w : Word), Executes s t w e.code → Settled t (e.reads w) →
    exec (e.instr w) s =
      .next (inSequence (writeOpt
        (age { t with plt := { t.plt with cy := e.carry (gprAt t (ra w)) (gprAt t (rb w)) t.plt.cy } })
        (rd w) (e.value (gprAt t (ra w)) (gprAt t (rb w)) t.plt.cy))))

/-- R319, R320, R321, R323: an operation of an iterative unit waits for its unit, reads its operands at issue, and
puts its result in flight with its latency; no register changes at issue.

R322: until a unit has written its result, a read of a destination register is a free value, here for the
instructions that read ga alone.

R322, R324, R348, R353: a result in flight is written when its latency has expired: the registers it names take
its values in order, and FCSR.FLAGS takes its flags. That ITERATIVE_UNIT_WRITE and FPU_RESULT_WRITE let what remains
of the latency pass is the model's choice (log entry 84). -/
def Obligations.IterativeResultsLandAfterTheirLatency : Prop :=
  (∀ e ∈ unitRows, ∀ (s t : State) (w : Word), Executes s t w e.code →
    Settled (awaitUnit t e.kind) [ra w, rb w] →
    let u := awaitUnit t e.kind
    let a := gprAt u (ra w)
    let b := gprAt u (rb w)
    exec (e.instr w) s =
      .next (inSequence { age u with plt := { (age u).plt with
        flights := (age u).plt.flights ++
          [{ kind := e.kind, writes := e.writes w a b, flags := 0, left := e.latency a b - 1 }] } })) ∧
  (∀ e ∈ aluRows, e.reads = readsA → ∀ (s t : State) (w : Word), Executes s t w e.code →
    ra w ≠ 0 → unitOwns t (ra w) = true →
    ∃ v : Word, exec (e.instr w) s = .next (inSequence (setGpr (age { t with free := t.free + 1 }) (rd w) v)) ∧
      ∀ b, v = e.value w (freeWord t) b) ∧
  ((∀ (s : State) (f : Flight) (d : Bool), s.hx1 = true → s.plt.flights = [f] →
    (f.kind = if d then .div else .mul) →
    exec (.iterativeUnitWrite d) s =
      .next (setGprs { s with plt := { s.plt with flights := [], fcsr := s.plt.fcsr ||| f.flags.zeroExtend 32 } } f.writes)) ∧
  (∀ (s : State) (f : Flight), s.hx1 = true → s.plt.flights = [f] → (f.kind = .fpu ∨ f.kind = .slow) →
    exec (.fpuResultWrite 0) s =
      .next (setGprs { s with plt := { s.plt with flights := [], fcsr := s.plt.fcsr ||| f.flags.zeroExtend 32 } } f.writes)) ∧
  (∀ (s : State) (f : Flight), s.plt.flights = [f] →
    age s = if f.left ≤ 1 then
        setGprs { s with plt := { s.plt with flights := [], fcsr := s.plt.fcsr ||| f.flags.zeroExtend 32 } } f.writes
      else { s with plt := { s.plt with flights := [{ f with left := f.left - 1 }] } }))

/-- R346, R353, R354, R373, R374: an FPU instruction that takes no trap. While FCSR.TEN is 0 its result is in flight
for its latency, or written at once when that is 1 PCLK; while TEN is not 0 it occupies its latency and its result
and flags are written when it ends.

R354, R364, R366, R370: an FPU instruction whose operand or result is subnormal while FCSR.TEN enables DN takes
DEN; otherwise one that raises an enabled flag takes FPE. It writes neither gd nor a flag. -/
def Obligations.FpuInstructionsDeliverOrTrap : Prop :=
  (∀ e ∈ fpuRows, ∀ (s t : State) (w : Word), Executes s t w e.code →
    let u := if e.kind = .slow then awaitUnit t .slow else t
    Settled u (e.reads w) →
    let a := gprAt u (ra w)
    let b := gprAt u (rb w)
    let r := fpuOutcome e u a b
    (bits u.plt.fcsr 13 8 = 0 →
      exec (e.instr w) s = .next (inSequence (launch (age u)
        { kind := e.kind, writes := [(rd w, r.val)], flags := r.flags, left := e.latency - 1 }))) ∧
    (bits u.plt.fcsr 13 8 ≠ 0 → bits u.plt.fcsr 12 8 &&& r.flags.toNat % 32 = 0 →
      (bits u.plt.fcsr 13 13 = 0 ∨ (e.subs a b = 0 ∧ r.tiny = false)) →
      exec (e.instr w) s = .next (inSequence (setGpr
        (issued { u with plt := { u.plt with fcsr := u.plt.fcsr ||| r.flags.zeroExtend 32 } } (e.latency - 1))
        (rd w) r.val)))) ∧
  (∀ e ∈ fpuRows, ∀ (s t : State) (w : Word), Executes s t w e.code → t.plt.pl ≠ 3 →
    let u := if e.kind = .slow then awaitUnit t .slow else t
    Settled u (e.reads w) →
    let a := gprAt u (ra w)
    let b := gprAt u (rb w)
    let r := fpuOutcome e u a b
    let trapped := bits u.plt.fcsr 12 8 &&& r.flags.toNat % 32
    let n := u.plt.pl.toNat + 1
    (bits u.plt.fcsr 13 13 = 1 → e.subs a b ≠ 0 →
      exec (e.instr w) s = .next (entered (drained u) n u.plt.pc 0x0B (BitVec.ofNat 32 (e.subs a b)) false)) ∧
    (bits u.plt.fcsr 13 13 = 1 → e.subs a b = 0 → r.tiny = true →
      exec (e.instr w) s = .next (entered (drained u) n u.plt.pc 0x0B 4 false)) ∧
    ((bits u.plt.fcsr 13 13 = 0 ∨ (e.subs a b = 0 ∧ r.tiny = false)) → trapped ≠ 0 →
      exec (e.instr w) s = .next (entered (drained u) n u.plt.pc (BitVec.ofNat 32 (trapped * 256 + 0x0A))
        (r.flags.zeroExtend 32) false)))

/-- R326, R327, R329, R348: a load that no cause refuses and that meets no error delivers what it reads, extended,
to gd: seen by the third instruction after from Bank 0, else by the next. LWX also reserves the block.

R326: a store that no cause refuses and that meets no error stores the low bytes of gb, least significant
first, and changes no general register.

R329, R330: SWC stores gb and writes 1 to gd when the reservation names the block of ga and no other master's
write reaches it first; otherwise it stores nothing and writes 0. Either way the reservation is cleared.

R326, R408: in Bank 0 outside the return stack, over words without damage, a load reads the bytes of module
memory and changes nothing, and a store writes its bytes, clears its own reservation on the block, and changes
nothing else. -/
def Obligations.LoadsAndStoresReachMemory : Prop :=
  (∀ e ∈ loadRows, ∀ (s t v : State) (w : Word) (bs : List Byte) (k : Nat), Executes s t w e.code →
    Settled t [ra w] →
    let a := (effAddr t w).toNat
    refusal t (access t false e.excl) a e.size = none →
    pilotLoad t .pilot a e.size = (v, .ok, bs, k) →
    dbpHit t false (pilotBytes a e.size) = false →
    let x := e.ext (numOf bs)
    let v' := if e.excl then { v with plt := { v.plt with resv := some (moduleOf t a / 64) } } else v
    let u := issued v' (loadTime t a e.size + k)
    exec (e.instr w) s = .next (inSequence (if pilotPlace a = .bank0 then
        launch u { kind := .load, writes := [(rd w, x)], flags := 0, left := 2 }
      else setGpr u (rd w) x))) ∧
  (∀ e ∈ storeRows, ∀ (s t v : State) (w : Word) (collided k : Nat), Executes s t w e.code →
    Settled t [ra w, rd w] →
    let a := (effAddr t w).toNat
    let bs := (List.range e.size).map fun i => BitVec.ofNat 8 ((gprAt t (rd w)).toNat / 256 ^ i)
    refusal t (access t true false) a e.size = none →
    pilotStore t .pilot a bs collided = (v, .ok, k) →
    dbpHit t true (pilotBytes a e.size) = false →
    exec (e.instr w collided) s = .next (inSequence (issued v (storeTime t a e.size + k)))) ∧
  (∀ (s t : State) (w : Word) (collided : Nat) (other : Bool), Executes s t w 0x6C0 → Settled t [ra w, rb w] →
    let a := (gprAt t (ra w)).toNat
    refusal t (access t true true) a 4 = none →
    (∀ (v : State) (k : Nat), t.plt.resv = some (moduleOf t a / 64) → other = false →
      pilotStore t .pilot a ((List.range 4).map fun i => BitVec.ofNat 8 ((gprAt t (rb w)).toNat / 256 ^ i)) collided
        = (v, .ok, k) →
      dbpHit t true (pilotBytes a 4) = false →
      exec (.swc w collided other) s =
        .next (inSequence (setGpr (issued { v with plt := { v.plt with resv := none } } (storeTime t a 4 + k + 1))
          (rd w) 1))) ∧
    (t.plt.resv ≠ some (moduleOf t a / 64) ∨ other = true →
      ∃ k, exec (.swc w collided other) s =
        .next (inSequence (setGpr (issued { t with plt := { t.plt with resv := none } } k) (rd w) 0)))) ∧
  (∀ (s : State) (a n collided : Nat) (bs : List Byte), 0 < n → a + n ≤ 0x7C0000 → bs.length = n →
    (∀ w ∈ wordsOf (bankAddr 0 a) n, damageAt s w = none) →
    (∃ k, pilotLoad s .pilot a n = (s, .ok, memBytes s (bankAddr 0 a) n, k)) ∧
    ∃ t k, pilotStore s .pilot a bs collided = (t, .ok, k) ∧
      (∀ x, memByte t x = if bankAddr 0 a ≤ x ∧ x < bankAddr 0 a + n then bs.getD (x - bankAddr 0 a) 0 else memByte s x) ∧
      t = { s with mem := t.mem, plt := { s.plt with resv := t.plt.resv } })

/-- R333, R335: branches and jumps. A taken transfer goes to its target and discards the fetch queue; a branch not
taken goes on at pc + 4.

R333, R334: CALL and CALLR push the address after them below RSP and jump, when RSLO + 4 ≤ RSP ≤ RSHI.

R333, R334: RET pops the address at RSP, when RSLO ≤ RSP ≤ RSHI − 4.

R337: RSLD and RSST reach an aligned word of the return-stack region. -/
def Obligations.TransfersOfControlSetPc : Prop :=
  (∀ (s t : State) (w : Word),
    (∀ taken : Bool, ∀ p ∈ [((0x800, .bez w), taken), ((0x840, .bnz w), !taken)],
      Executes s t w p.1.1 → Settled t [rd w] → (gprAt t (rd w) = 0 ↔ p.2 = true) →
      exec p.1.2 s = .next (if taken then transferTo (issued t 1) (t.plt.pc + branchOff w)
        else inSequence (age t))) ∧
    (Executes s t w 0x880 → exec (.j w) s = .next (transferTo (issued t 1) (t.plt.pc + jumpOff w))) ∧
    (Executes s t w 0x109 → Settled t [ra w] → (gprAt t (ra w)).toNat % 4 = 0 →
      exec (.jr w) s = .next (transferTo (issued t 1) (gprAt t (ra w))))) ∧
  (∀ (s t v : State) (w : Word),
    t.plt.rslo.toNat + 4 ≤ t.plt.rsp.toNat → t.plt.rsp.toNat ≤ t.plt.rshi.toNat →
    homeWrite t 0 (t.plt.rsp.toNat - 4)
      ((List.range 4).map fun i => BitVec.ofNat 8 ((t.plt.pc + 4).toNat / 256 ^ i)) = (v, true) →
    let u := { v with plt := { v.plt with rsp := v.plt.rsp - 4 } }
    (Executes s t w 0x8C0 → (t.plt.pc + jumpOff w).toNat % 4 = 0 →
      exec (.call w) s = .next (transferTo (issued u 1) (t.plt.pc + jumpOff w))) ∧
    (Executes s t w 0x10A → Settled t [ra w] → (gprAt t (ra w)).toNat % 4 = 0 →
      exec (.callr w) s = .next (transferTo (issued u 1) (gprAt t (ra w))))) ∧
  (∀ (s t v : State) (w : Word) (bs : List Byte), Executes s t w 0x10B →
    t.plt.rslo.toNat ≤ t.plt.rsp.toNat → t.plt.rsp.toNat + 4 ≤ t.plt.rshi.toNat →
    homeRead t 0 t.plt.rsp.toNat 4 = (v, false, bs) → numOf bs % 4 = 0 →
    exec (.ret w) s = .next (transferTo (issued { v with plt := { v.plt with rsp := v.plt.rsp + 4 } } 2)
      (BitVec.ofNat 32 (numOf bs)))) ∧
  (∀ (s t v : State) (w : Word),
    let a := (gprAt t (ra w)).toNat
    a % 4 = 0 → 0x7C0000 ≤ a → a < 0x800000 →
    (∀ bs, Executes s t w 0x10C → Settled t [ra w] → homeRead t 0 a 4 = (v, false, bs) →
      dbpHit t false (pilotBytes a 4) = false →
      exec (.rsld w) s = .next (inSequence (setGpr (age v) (rd w) (BitVec.ofNat 32 (numOf bs))))) ∧
    (Executes s t w 0x10D → Settled t [ra w, rb w] →
      homeWrite t 0 a ((List.range 4).map fun i => BitVec.ofNat 8 ((gprAt t (rb w)).toNat / 256 ^ i)) = (v, true) →
      dbpHit t true (pilotBytes a 4) = false →
      exec (.rsst w) s = .next (inSequence (age (if v.plt.resv = some (moduleOf t a / 64)
        then { v with plt := { v.plt with resv := none } } else v)))))

/-- R325, R344, R345, R368: RTE loads pc and ST from the save set of its level and clears the reservation; IDLE
stays at its address; SYNC.I discards the fetch queue; WAITU waits for the iterative units.

R344, R364, R366, R370: TRAP and BRK below level 3 enter the next level with n in SAVE_VAL: TRAP leaves SAVE_PC
on the next instruction, BRK on itself. With DBG_CTL.BRKHALT, BRK halts the Pilots instead (R563). -/
def Obligations.SystemInstructionsAct : Prop :=
  (∀ (s t : State) (w : Word),
    (Executes s t w 0x102 → 1 ≤ t.plt.pl.toNat →
      let x := savedAt t t.plt.pl.toNat
      bits x.st 1 0 ≤ t.plt.pl.toNat →
      exec (.rte w) s = .next (transferTo (issued { t with plt := { t.plt with
        cy := x.st.getLsbD 8, ie := x.st.getLsbD 3, pl := x.st.truncate 2, resv := none } } 2) x.pc)) ∧
    (Executes s t w 0x105 → exec (.idle w) s =
      .next { age t with plt := { (age t).plt with idle := true, fq := [] }, dbg := { (age t).dbg with skipIbp := false } }) ∧
    (Executes s t w 0x106 → exec (.syncI w) s =
      .next (inSequence (issued { t with plt := { t.plt with fq := [] } } 5))) ∧
    (Executes s t w 0x108 → exec (.waitu w) s = .next (inSequence (age (awaitUnits t isMdu))))) ∧
  (∀ (s t : State) (w : Word), t.plt.pl ≠ 3 →
    let n := BitVec.ofNat 32 (bits w 20 11)
    (Executes s t w 0x103 →
      exec (.trap w) s = .next (entered (drained t) (t.plt.pl.toNat + 1) (t.plt.pc + 4) 7 n false)) ∧
    (Executes s t w 0x104 → getFlag t Reg.dbgCtl 4 = false →
      exec (.brk w) s = .next (entered (drained t) (t.plt.pl.toNat + 1) t.plt.pc 8 n false)) ∧
    (Executes s t w 0x104 → getFlag t Reg.dbgCtl 4 = true →
      ∃ u, exec (.brk w) s = .next u ∧ u.plt.halted = true ∧ u.dbg.onBrk = true ∧ u.dbg.cause = 5 ∧ u.plt.pc = t.plt.pc ∧
        u.plt.pl = t.plt.pl ∧ u.plt.resv = none ∧ u.mem = t.mem))

/-- R339, R341, R356: a block instruction with nothing left goes on at pc + 4; otherwise it makes one step, of at most
what is left of the 64-byte block of its step address, updates its registers together, and stays at its address while
bytes are left or an interrupt waits. The PCLK of a step shorter than a block, and of a BMOVE between two regions, are the
model's choice (log entry 182). Whatever memory its step meets, and then for a step within Bank 0, which always
completes. -/
def Obligations.BlockInstructionMakesOneStep : Prop :=
  ∀ (s t : State) (w : Word) (collided : Nat), Settled t [rd w, ra w, rb w] →
    let d := gprAt t (rd w)
    let a := gprAt t (ra w)
    let count := gprAt t (rb w)
    let n := min count.toNat (64 - d.toNat % 64)
    let m := min count.toNat (64 - a.toNat % 64)
    let left : Word := count - BitVec.ofNat 32 n
    let moved : List (BitVec 5 × Word) := [(ra w, a + BitVec.ofNat 32 n), (rd w, d + BitVec.ofNat 32 n), (rb w, left)]
    let pattern := (List.range n).map fun i => BitVec.ofNat 8 (a.toNat / 256 ^ ((d.toNat + i) % 4))
    let summed (bs : List Byte) : List (BitVec 5 × Word) :=
      [(ra w, a + BitVec.ofNat 32 m), (rd w, crcBytes d bs), (rb w, count - BitVec.ofNat 32 m)]
    (count = 0 → ∀ p ∈ [(0x10E, .bmove w collided), (0x10F, .bfill w collided), (0x110, .bcrc w)],
      Executes s t w p.1 → exec p.2 s = .next (inSequence (age t))) ∧
    (∀ (t₁ v : State) (bs : List Byte) (k k' : Nat), Executes s t w 0x10E → count ≠ 0 →
      blockRefusal t (some a) (some d) n = none → pilotLoad t .pilot a.toNat n = (t₁, .ok, bs, k) →
      pilotStore (moveBytes t₁ a.toNat d.toNat count.toNat bs).1 .pilot d.toNat
        (moveBytes t₁ a.toNat d.toNat count.toNat bs).2 collided = (v, .ok, k') →
      (dbpHit t false (pilotBytes a.toNat n) || dbpHit t true (pilotBytes d.toNat n)) = false →
      exec (.bmove w collided) s =
        .next (stepMade v w left (max (stepTime a 10 18 30) (stepTime d 10 18 30) - 1 + k + k') moved)) ∧
    (∀ (v : State) (k : Nat), Executes s t w 0x10F → count ≠ 0 → blockRefusal t none (some d) n = none →
      pilotStore t .pilot d.toNat pattern collided = (v, .ok, k) → dbpHit t true (pilotBytes d.toNat n) = false →
      exec (.bfill w collided) s =
        .next (stepMade v w left (stepTime d 9 10 20 - 1 + k) [(rd w, d + BitVec.ofNat 32 n), (rb w, left)])) ∧
    (∀ (v : State) (bs : List Byte) (k : Nat), Executes s t w 0x110 → count ≠ 0 →
      blockRefusal t (some a) none m = none → pilotLoad t .pilot a.toNat m = (v, .ok, bs, k) →
      dbpHit t false (pilotBytes a.toNat m) = false →
      exec (.bcrc w) s =
        .next (stepMade v w (count - BitVec.ofNat 32 m) (stepTime a 18 18 30 - 1 + k) (summed bs))) ∧
    (count ≠ 0 → t.plt.pl ≠ 0 → InBankZero t d.toNat n →
      (Executes s t w 0x10E → InBankZero t a.toNat n →
        (dbpHit t false (pilotBytes a.toNat n) || dbpHit t true (pilotBytes d.toNat n)) = false →
        let p := moveBytes t a.toNat d.toNat count.toNat (memBytes t (bankAddr 0 a.toNat) n)
        ∃ v, StoredInBankZero p.1 v d.toNat p.2 ∧ exec (.bmove w collided) s = .next (stepMade v w left 9 moved)) ∧
      (Executes s t w 0x10F → dbpHit t true (pilotBytes d.toNat n) = false →
        ∃ v, StoredInBankZero t v d.toNat pattern ∧
          exec (.bfill w collided) s = .next (stepMade v w left 8 [(rd w, d + BitVec.ofNat 32 n), (rb w, left)]))) ∧
    (count ≠ 0 → t.plt.pl ≠ 0 → InBankZero t a.toNat m → Executes s t w 0x110 →
      dbpHit t false (pilotBytes a.toNat m) = false →
      exec (.bcrc w) s = .next (stepMade t w (count - BitVec.ofNat 32 m) 17 (summed (memBytes t (bankAddr 0 a.toNat) m))))

/-- R314, R315, R344, R364, R366, R370, R371: whatever Pilot instruction is commanded, when the word at pc is no
instruction the Pilots take ILLINS, and when the level may not execute it they take PRIV; both leave SAVE_PC on the
instruction and its word in SAVE_VAL.

R328, R332, R359, R371: what refuses an access of n bytes at a: the return-stack region, at every level; an exclusive
access, or one to MMIO, that is not aligned; Bank 1 at level 0; and a store to the end of Bank 1 above it.

R328, R332, R334, R335, R337, R357 to R360, R364, R369, R370, R371: a load or store that a cause refuses raises
that cause with one of the DETAILs that apply and its effective address, and one that memory answers with an error
raises BUSERR with its DETAIL. CALL, CALLR and RET raise RSTACK outside their bounds, and ALIGN for a target or a
popped address that is not aligned, as JR does; RTE raises BADRET above its level; RSLD and RSST raise ALIGN, and
PROT outside their region. At level 3 the Pilots freeze instead, and the Warden holds the module. -/
def Obligations.IllegalAndPrivilegedWordsTrap : Prop :=
  (∀ i ∈ pilotInstrs, ∀ (s t : State) (w : Word), mayExecute s = true → ibpHit s = false →
    fetchNext s = (t, .inl w) → s.plt.pl ≠ 3 → t.plt.pl = s.plt.pl →
    (validWord w = false →
      exec (i w) s = .next (entered (drained t) (t.plt.pl.toNat + 1) t.plt.pc 1 w false)) ∧
    (validWord w = true → s.plt.pl.toNat < needLevel w →
      exec (i w) s = .next (entered (drained t) (t.plt.pl.toNat + 1) t.plt.pc 2 w false))) ∧
  (∀ (t : State) (x : Access) (a n : Nat), 0 < n → x.block = false → x.open_ = false →
    (x.excl = false → 0x7C0000 ≤ a → a + n ≤ 0x800000 → refusal t x a n = some (4, [1], false)) ∧
    (a % n ≠ 0 → (x.excl = true ∨ (0xF0000000 ≤ a ∧ a < 0xF0D00000)) → refusal t x a n = some (3, [2], false)) ∧
    ((x.excl = true → a % n = 0) → 0x1000000 ≤ a → a + n ≤ 0x1800000 →
      (x.level = 0 → refusal t x a n = some (4, [2], false)) ∧
      (x.level ≠ 0 → x.wr = true → 0x17FFF00 ≤ a → refusal t x a n = some (4, [4], false)))) ∧
  (∀ (s t : State) (w : Word) (collided : Nat),
    let ea := effAddr t w
    let a := gprAt t (ra w)
    let sp := t.plt.rsp.toNat
    (∀ e ∈ loadRows, Executes s t w e.code → Settled t [ra w] →
      (∀ code l h, refusal t (access t false e.excl) ea.toNat e.size = some (code, l, h) →
        ∃ d, (l ≠ [] → d ∈ l) ∧ Raises (afterDetail t l) (exec (e.instr w) s) code d false h ea) ∧
      (∀ v r bs k, refusal t (access t false e.excl) ea.toNat e.size = none →
        pilotLoad t .pilot ea.toNat e.size = (v, r, bs, k) → r ≠ .ok →
        Raises v (exec (e.instr w) s) 6 (busDetail r) false (loadHalf2 t ea.toNat e.size) ea)) ∧
    (∀ e ∈ storeRows, Executes s t w e.code → Settled t [ra w, rd w] →
      let bs := (List.range e.size).map fun i => BitVec.ofNat 8 ((gprAt t (rd w)).toNat / 256 ^ i)
      (∀ code l h, refusal t (access t true false) ea.toNat e.size = some (code, l, h) →
        ∃ d, (l ≠ [] → d ∈ l) ∧ Raises (afterDetail t l) (exec (e.instr w collided) s) code d true h ea) ∧
      (∀ v r k, refusal t (access t true false) ea.toNat e.size = none →
        pilotStore t .pilot ea.toNat bs collided = (v, r, k) → r ≠ .ok →
        Raises v (exec (e.instr w collided) s) 6 (busDetail r) true (storeHalf2 t ea.toNat bs) ea)) ∧
    (Executes s t w 0x6C0 → Settled t [ra w, rb w] → ∀ other code l h,
      refusal t (access t true true) a.toNat 4 = some (code, l, h) →
      ∃ d, (l ≠ [] → d ∈ l) ∧ Raises (afterDetail t l) (exec (.swc w collided other) s) code d true h a) ∧
    (∀ p ∈ [(0x8C0, Instr.call w, t.plt.pc + jumpOff w), (0x10A, .callr w, a)], Executes s t w p.1 →
      (p.1 = 0x10A → Settled t [ra w]) →
      (sp < t.plt.rslo.toNat + 4 → Raises t (exec p.2.1 s) 5 1 false false t.plt.rsp) ∧
      (t.plt.rslo.toNat + 4 ≤ sp → t.plt.rshi.toNat < sp →
        ∃ d ∈ [1, 2], Raises { t with free := t.free + 1 } (exec p.2.1 s) 5 d false false t.plt.rsp) ∧
      (t.plt.rslo.toNat + 4 ≤ sp → sp ≤ t.plt.rshi.toNat → p.2.2.toNat % 4 ≠ 0 →
        Raises t (exec p.2.1 s) 3 3 false false p.2.2)) ∧
    (Executes s t w 0x10B →
      (t.plt.rshi.toNat < sp + 4 → Raises t (exec (.ret w) s) 5 2 false false t.plt.rsp) ∧
      (sp + 4 ≤ t.plt.rshi.toNat → sp < t.plt.rslo.toNat →
        ∃ d ∈ [1, 2], Raises { t with free := t.free + 1 } (exec (.ret w) s) 5 d false false t.plt.rsp) ∧
      (∀ v bad bs, t.plt.rslo.toNat ≤ sp → sp + 4 ≤ t.plt.rshi.toNat → homeRead t 0 sp 4 = (v, bad, bs) →
        (bad = true → Raises v (exec (.ret w) s) 6 3 false false t.plt.rsp) ∧
        (bad = false → numOf bs % 2 ^ 32 % 4 ≠ 0 →
          Raises v (exec (.ret w) s) 3 3 false false (BitVec.ofNat 32 (numOf bs))))) ∧
    (Executes s t w 0x109 → Settled t [ra w] → a.toNat % 4 ≠ 0 → Raises t (exec (.jr w) s) 3 3 false false a) ∧
    (Executes s t w 0x102 → 1 ≤ t.plt.pl.toNat →
      let x := savedAt t t.plt.pl.toNat
      t.plt.pl.toNat < bits x.st 1 0 → Raises t (exec (.rte w) s) 9 t.plt.pl.toNat false false x.st) ∧
    (∀ p ∈ [(0x10C, Instr.rsld w, false), (0x10D, .rsst w, true)], Executes s t w p.1 → Settled t [ra w, rb w] →
      (a.toNat % 4 ≠ 0 → Raises t (exec p.2.1 s) 3 2 p.2.2 false a) ∧
      (a.toNat % 4 = 0 → a.toNat < 0x7C0000 ∨ 0x800000 ≤ a.toNat → Raises t (exec p.2.1 s) 4 1 p.2.2 false a)))

/-- R365, R366, R370, R372: an interrupt is taken at its line's level, at the vector + 0x80; an alarm goes first, is
taken at level 3, and is no longer pending.

R372: of the lines that can be taken, the one of the highest level is taken first, then the lowest number. -/
def Obligations.InterruptsAndAlarmsAreEntered : Prop :=
  (∀ (s : State), pilotsRun s = true →
    let nextPc := if s.plt.idle then s.plt.pc + 4 else s.plt.pc
    (∀ k, (s.plt.pl = 3 ∨ s.plt.alarms = []) → firstLine s = some k → lineLevel s k = 1 ∨ lineLevel s k = 2 →
      exec .interruptEntry s =
        .next (entered (drained s) (lineLevel s k) nextPc (BitVec.ofNat 32 (2 ^ 31 + 0x40 + k)) 0 true)) ∧
    (∀ d l, s.plt.pl ≠ 3 → s.plt.alarms = d :: l →
      exec .alarmEntry s = .next (entered (drained { s with plt := { s.plt with alarms := l } }) 3 nextPc
        (BitVec.ofNat 32 (d.toNat * 256 + 0x10)) 0 false))) ∧
  (∀ (s : State) (k : Nat), firstLine s = some k →
    lineTakeable s k = true ∧ k < 10 ∧
    ((∀ j < 10, lineLevel s j = 1 ∨ lineLevel s j = 2) → ∀ j < 10, lineTakeable s j = true →
      lineLevel s j < lineLevel s k ∨ (lineLevel s j = lineLevel s k ∧ k ≤ j)))

/-- R378, R379, R380: the first expiry of the watchdog sets STAGE and reloads; one with STAGE set reports a Pilot
watchdog event and raises ALARM with DETAIL WDOG, and reloads too, which is the model's reading (log entry 80); a
kick of 0xA5C3 reloads and clears STAGE and any other value does nothing; EN, once set, stays. R370, R385: a write of
either register by Pilots at level 0 raises PROT with DETAIL LEVEL.

R112, R384, R514, R515, R516: a comparator mismatch freezes both Pilots and requests the Helm hold, at once where
the debugger has the Helm halted. When exactly one passes the arbitration, it takes its LOAD values, enters level 3
with ALARM DETAIL TAKEOVER at the vector base of FLT_TKVBASE, and the Helm hold ends; otherwise the Warden lowers
HEALTHY and holds the module. What a takeover keeps and discards beyond R515's words is the model's reading (log
entry 82). -/
def Obligations.WatchdogAndLockstepAct : Prop :=
  (∀ (s : State) (wr : Writer) (v : Word),
    (pilotsRun s = true → s.plt.wdogEn = true → wdogLeft s = 0 → s.plt.wdogStage = false →
      exec .pilotWatchdogExpiry s = .next { s with plt := { s.plt with
        wdogStage := true, wdogCnt := (reg s Reg.pltWdogReload).toNat, wdogAt := s.now } }) ∧
    (pilotsRun s = true → s.plt.wdogEn = true → wdogLeft s = 0 → s.plt.wdogStage = true →
      ∃ u, exec .pilotWatchdogExpiry s = .next u ∧ u.flt.reports = s.flt.reports ++ [⟨0x0D, 0, 0⟩] ∧ 2 ∈ u.plt.alarms ∧
        u.plt.wdogCnt = (reg s Reg.pltWdogReload).toNat ∧ u.plt.gpr = s.plt.gpr ∧ u.plt.pc = s.plt.pc ∧ u.mem = s.mem) ∧
    (writerMay s wr Reg.pltWdogKick = true → bits v 15 0 = 0xA5C3 → ∃ u, exec (.pltWdogKick wr v) s = .next u ∧
      u.plt = { s.plt with wdogStage := false, wdogCnt := (reg s Reg.pltWdogReload).toNat, wdogAt := s.now } ∧
      u.mem = s.mem ∧ u.helm = s.helm) ∧
    (writerMay s wr Reg.pltWdogKick = true → bits v 15 0 ≠ 0xA5C3 → exec (.pltWdogKick wr v) s = .next s) ∧
    (pilotsRun s = true → s.plt.pl = 0 → ∀ p ∈ [(Reg.pltWdogKick, exec (.pltWdogKick .pilot v) s),
        (Reg.pltWdogCtl, exec (.pltWdogCtlWrite .pilot v) s)],
      p.2 = .next (entered (drained s) 1 s.plt.pc 0x20000204 (BitVec.ofNat 32 (0xF0000000 + p.1)) false)) ∧
    (writerMay s wr Reg.pltWdogCtl = true → s.plt.wdogEn = false → v.getLsbD 0 = true →
      ∃ u, exec (.pltWdogCtlWrite wr v) s = .next u ∧ u.plt.wdogEn = true ∧ u.plt.gpr = s.plt.gpr ∧ u.mem = s.mem) ∧
    (s.plt.wdogEn = true → ∃ u, exec (.pltWdogCtlWrite wr v) s = .next u ∧ u.plt.wdogEn = true)) ∧
  (∀ (s : State),
    (pilotsLive s = true → s.plt.solo = false →
      exec .lockstepMismatch s = .next { s with
        plt := { s.plt with frozen := true }
        helm := if s.helm.held = true then s.helm
          else if s.helm.dbgHalt = true ∧ s.helm.dbgStep = false then { s.helm with held := true, holdReq := false }
          else { s.helm with holdReq := true } }) ∧
    (s.hx1 = true → s.plt.frozen = true → s.wdn.held = false →
      (∀ b : Bool, ∃ u, exec (.arbitrationDecision b (!b)) s = .next u ∧
        u.plt.frozen = false ∧ u.plt.solo = true ∧ u.plt.survivor = !b ∧ u.plt.pl = 3 ∧ u.plt.ie = false ∧
        u.plt.gpr = Vector.replicate 32 0 ∧ u.plt.fcsr = 0 ∧ u.plt.resv = none ∧ u.plt.flights = [] ∧
        u.plt.vbase = reg s Reg.fltTkvbase ∧ u.plt.pc = (reg s Reg.fltTkvbase &&& 0xFFFFF000) + 0x300 ∧
        u.plt.save3.cause = 0x110 ∧ u.mem.dirty = [] ∧ u.helm.holdReq = false ∧ u.helm.held = false ∧
        u.wdn.held = false) ∧
      (∀ b : Bool, ∃ u, exec (.arbitrationDecision b b) s = .next u ∧
        u.wdn.held = true ∧ u.wdn.healthy = false ∧ u.plt.frozen = true)))

/-! ## The Helm -/

/-- R28 to R32, R37, R40, R41, R43, R48, R57, R65, R66, R68, R70, R86, R91: what a microword without special operation
does to every PE: in the rows that are not lost, the latches and the plane that the write port names take the values
of the PE's adder, boolean unit and latch loads, and a plane is written where M is 1; the flag plane takes F where M is
1; a probed write of a signed variable loads D with STORED; no other plane changes.

R88, R89, R150, R154: the probe of a microword: one that its tracker does not take sets BADCODE and leaves tracker,
results and commits as they stand; an OPEN binds the variable under a new sequence; a probed write sends the result of
its offset; a CLOSE ends the sequence and asks for its commit. -/
def Obligations.MicrowordComputesEveryPe : Prop :=
  (∀ (s : State) (k : KernelCtx) (m : Micro), Issues s k m → (m.spec = 0 ∨ 6 < m.spec) →
    ∃ t row col, exec .microwordIssue s = .next t ∧
      BusSeen s k m m.rbus 4092 rowBus row ∧ BusSeen s k m m.cbus 4093 colBus col ∧
      (∀ n < peCount, (livePes s).getLsbD n = true →
        let l := latchesAt s n
        let i := inputsAt s k m row col n
        (∀ w, (writePort s k m.pw).plane = some w →
          let stored := if l.m then peY m l i else (planeBits s w).getLsbD n
          let next := peNext m l i stored
          (planeBits t w).getLsbD n = stored ∧
          latchesAt t n = { next with d := if probeLoadsD s k m then stored else next.d }) ∧
        ((writePort s k m.pw).plane = none → m.ldd ≠ 3 → latchesAt t n = peNext m l i false) ∧
        (∀ f, flagWrite s k m = some f → (writePort s k m.pw).plane ≠ some f →
          (planeBits t f).getLsbD n = ((planeBits s f).getLsbD n || (l.m && peF m l i)))) ∧
      (∀ n < peCount, (livePes s).getLsbD n = false → latchesAt t n = ⟨false, false, false, false, false⟩) ∧
      (∀ w, (writePort s k m.pw).plane ≠ some w → flagWrite s k m ≠ some w → planeBits t w = planeBits s w) ∧
      t.mem = s.mem ∧ t.plt = s.plt ∧ t.ttb = s.ttb ∧ t.que = s.que ∧ t.ldr = s.ldr ∧ t.wdn = s.wdn) ∧
  (∀ (s : State) (k : KernelCtx) (m : Micro), Issues s k m → (m.spec = 0 ∨ 6 < m.spec) → m.probe ≠ 0 → m.probe ≤ 3 →
    (∀ n < peCount, (livePes s).getLsbD n = false → s.arr.d.getLsbD n = false) →
    ∃ t j, exec .microwordIssue s = .next t ∧ t.helm.run = some j ∧
      (probeTaken s k m = none → j.track = k.track ∧ t.helm.probes = s.helm.probes ∧ t.helm.commits = s.helm.commits ∧
        (reg t Reg.hlmStat &&& hBADCODE) = hBADCODE) ∧
      (∀ n off, probeTaken s k m = some (n, off) →
        let signed := descSigned (descAt s n)
        let open_ : Option Tracker := if m.probe = 1 then some ⟨s.helm.seqs + 1, n, none, 0⟩ else k.track
        j.track = (if m.probe = 3 then none else open_) ∧
        (m.probe ≠ 3 → t.helm.commits = s.helm.commits) ∧
        (m.probe = 3 → ∃ r due, open_ = some r ∧ t.helm.commits = s.helm.commits ++ [{ r with due := due }]) ∧
        ((writePort s k m.pw).plane = none → t.helm.probes = s.helm.probes) ∧
        (∀ w, (writePort s k m.pw).plane = some w → ∃ r due, open_ = some r ∧ t.helm.probes = s.helm.probes ++
          [⟨r.seq, off, decide (∃ x < peCount, (livePes s).getLsbD x = true ∧
            (if signed then off ≠ 0 ∧ (planeBits t w).getLsbD x ≠ s.arr.d.getLsbD x
             else (planeBits t w).getLsbD x = true)), due⟩])))

/-- R78, R79, R81, R82, R83: the sequencer after a microword: the next address, the micro-return stack, the loop
counters and their indexes; reductions in flight change neither GOR nor the census slots. -/
def Obligations.MicrowordSequencesTheKernel : Prop :=
  ∀ (s : State) (k : KernelCtx) (m : Micro), Issues s k m → (m.spec = 0 ∨ 6 < m.spec) →
    let yes := condAtIssue k m.cond
    let loaded := (loopLoad s k m).1
    ∃ t j, exec .microwordIssue s = .next t ∧ t.helm.run = some j ∧ j.upc = k.next ∧ j.next = nextAddress k m yes ∧
      j.stack = (if m.seq = 3 ∧ yes = true then (k.next + 1) :: k.stack
        else if m.seq = 4 ∧ yes = true then k.stack.tail else k.stack) ∧
      (j.lc0, j.i0) = counterAfter m 0 k.lc0 k.i0 yes loaded ∧
      (j.lc1, j.i1) = counterAfter m 1 k.lc1 k.i1 yes loaded ∧
      j.ended = (decide (m.seq = 7) && yes) ∧ j.gor = k.gor ∧ j.slots = k.slots ∧ j.req = k.req ∧
      t.helm.landing = (m.landing && !j.ended) ∧ t.helm.gap = s.helm.gap + m.clen ∧
      t.helm.nq = s.helm.nq ∧ t.helm.uq = s.helm.uq ∧ t.helm.desc = s.helm.desc ∧ t.helm.store = s.helm.store

/-- R92 to R95, R197, R198, R448, R450: the special operations: an array barrier queues its floating-point event and
writes no plane; HALOX counts a post a slot and, where the side is open, sends each edge on its port; HALOW waits on
an open edge; WIDTH_RESET and WIDTH_SET store the
live width; NOTIFY posts its code. -/
def Obligations.SpecialOperationsAct : Prop :=
  ∀ (s : State) (k : KernelCtx) (m : Micro), Issues s k m →
    (m.spec = 1 → ∃ t j, exec .abar s = .next t ∧ t.helm.run = some j ∧ j.upc = k.next ∧
      t.arr.planes = s.arr.planes ∧ t.helm.red = s.helm.red ∧ t.helm.probes = s.helm.probes ∧ t.mem = s.mem ∧
      j.fpev = (k.fpev || decide (raisedFlags s k.req.trap ≠ 0)) ∧
      t.helm.fpq = (if raisedFlags s k.req.trap ≠ 0 ∧ s.helm.fpq.length < 8 then
        s.helm.fpq ++ [⟨k.req.kid, false, raisedFlags s k.req.trap, k.lc0, k.next, s.ttb.sail⟩]
        else s.helm.fpq)) ∧
    (m.spec = 2 → m.haloOk = true → m.red = 0 →
      let side := dirSide m.dir
      ∃ t, exec .halox s = .next t ∧
        (∀ x, storeGet 0 t.fry.posts x = storeGet 0 s.fry.posts x + (haloKeys side m.halosel m.count).count x) ∧
        (edgeOpen s side = true →
          let u := (List.range m.count).foldl (fun u i => sendOn u (sideIndex side) (.halo side (m.halosel + i) (instSail s)
            (storeGet 0 s.fry.posts (haloKey side (m.halosel + i)))
            (edgeOf (delivered s (readPort s k m.pa i).1 &&& livePes s) side))) s
          t.out = u.out ∧ t.fry.ports = u.fry.ports) ∧
        (edgeOpen s side = false → t.out = s.out ∧ t.fry.ports = s.fry.ports) ∧
        (m.flag = 0 → t.arr.planes = s.arr.planes) ∧ t.mem = s.mem) ∧
    (m.spec = 3 → m.haloOk = true → s.helm.waited = false → edgeOpen s (dirSide m.dir) = true →
      exec .halow s = .next { s with helm := { s.helm with
        halow := some ⟨dirSide m.dir, m.halosel, m.count, s.now⟩, noSlot := NoSlot.zero } }) ∧
    (m.spec = 3 → (m.haloOk = false ∨ s.helm.waited = true ∨ edgeOpen s (dirSide m.dir) = false) →
      ∃ t j, exec .halow s = .next t ∧ t.helm.run = some j ∧ j.upc = k.next ∧ t.helm.halow = none ∧ t.mem = s.mem) ∧
    (∀ n off, m.spec = 4 → (writePort s k m.pw).var = some (n, off) →
      ∃ t, exec .widthReset s = .next t ∧
        t.helm.desc = storePut 0 s.helm.desc n (descWithLw (descAt s n) (descDw (descAt s n)) &&& descMask) ∧
        t.mem = s.mem) ∧
    (∀ n off, m.spec = 5 → (writePort s k m.pw).var = some (n, off) →
      ∃ t, exec .widthSet s = .next t ∧ t.mem = s.mem ∧
        t.helm.desc = if descDw (descAt s n) < m.count ∨ (m.count = 0 ∧ descSigned (descAt s n) = true) then s.helm.desc
          else storePut 0 s.helm.desc n (descWithLw (descAt s n) m.count &&& descMask)) ∧
    (m.spec = 6 → ∃ t, exec .notify s = .next t ∧ t.helm.notifyQ = s.helm.notifyQ ++ [BitVec.ofNat 16 m.imm] ∧
      t.helm.desc = s.helm.desc ∧ t.mem = s.mem)

/-- R87, R90, R137, R139, R143, R144, R151, R152, R456: what completes: the oldest reduction of a kind gives the
kernel its global OR or its census slot, but a global OR waits for every older reduction of installation scope; an
installation's reduction completes with the verdict and every member's contribution to it; a probe result reaches the
tracker of its sequence, and a closed sequence commits the live width once its probes have returned. The count of ACLK
since the last landing takes in what the completion shows to have passed (the model's choice, log entry 165).

R64, R80, R446, R450, R451: a HALOW that waits ends once every slot it names is fresh, whose fresh bits it clears
and whose count of waits it advances; past the time limit the missing slots take the port's FILL, the event is counted,
and it ends too; where the side has closed meanwhile they take FILL with no count (the model's choice, log entry 202).
Its microword then issues, unless another stall has come to hold it; one whose CALL or RET fails at its issue stops the
kernel with none of its fields acting. -/
def Obligations.OutstandingWorkOfAKernelCompletes : Prop :=
  (∀ (s : State) (k : KernelCtx), s.helm.run = some k →
    (∀ l r l', s.helm.red = l ++ r :: l' → r.slot = none → r.inst = none →
      (∀ x ∈ l, x.slot.isSome = true) → (∀ x ∈ l, x.inst = none) →
      ∃ t, exec .globalOrComplete s = .next t ∧ Completed s t r.due ∧ t.helm.red = l ++ l' ∧ t.fry = s.fry ∧
        t.helm.run = some (withReduction k r r.value)) ∧
    (∀ l r l', s.helm.red = l ++ r :: l' → r.slot = none → (∃ x ∈ l, x.inst.isSome = true) →
      (∀ x ∈ l, x.slot.isSome = true) → exec .globalOrComplete s = .next s) ∧
    (∀ l r l', s.helm.red = l ++ r :: l' → r.slot.isSome = true → r.inst = none → (∀ x ∈ l, x.slot = none) →
      ∃ t, exec .censusComplete s = .next t ∧ Completed s t r.due ∧ t.helm.red = l ++ l' ∧ t.fry = s.fry ∧
        t.helm.run = some (withReduction k r r.value)) ∧
    (∀ l r l' n, s.helm.red = l ++ r :: l' → r.inst = some n →
      (∀ x ∈ l, x.slot.isSome ≠ r.slot.isSome ∧ (r.slot = none → x.inst = none) ∧
        ∀ j, x.inst = some j → ¬ (verdictHere s x.sail = true ∧ allContributed s x.sail j = true)) →
      verdictHere s r.sail = true → allContributed s r.sail n = true →
      ∃ t, exec .installationReductionDone s = .next t ∧ Completed s t r.due ∧ t.helm.red = l ++ l' ∧
        t.helm.run = some (withReduction k r (installationValue s r n)) ∧
        t.fry = { s.fry with contrib := s.fry.contrib.filter fun c => decide (c.k ≠ n) || decide (c.sail ≠ r.sail) }) ∧
    (∀ p l, s.helm.probes = p :: l →
      ∃ t, exec .probeResult s = .next t ∧ Completed s t p.due ∧ t.helm.probes = l ∧ t.helm.red = s.helm.red ∧
        t.helm.commits = s.helm.commits.map (·.take p) ∧ t.fry = s.fry ∧
        t.helm.run = some { k with track := k.track.map (·.take p) }) ∧
    (∀ c l, s.helm.commits = c :: l → (∀ p ∈ s.helm.probes, p.seq ≠ c.seq) →
      let d := descAt s c.desc
      let h := match c.high with | some i => i + 1 | none => 0
      let width := min (if descSigned d then max 1 h else h) (descDw d)
      ∃ t, exec .liveWidthCommit s = .next t ∧ t.helm.commits = l ∧ t.helm.run = some k ∧ t.helm.red = s.helm.red ∧
        t.helm.desc = storePut 0 s.helm.desc c.desc (descWithLw d width &&& descMask) ∧
        t.helm.gap = max s.helm.gap c.due ∧ t.arr = s.arr ∧ t.mem = s.mem ∧ t.fry = s.fry)) ∧
  (∀ (s : State) (k : KernelCtx) (w : HaloWait), s.helm.run = some k → s.helm.halow = some w → waitOpen s = true →
    let keys := haloKeys w.side w.first w.count
    let missing := keys.filter fun x => decide (x ∉ s.fry.fresh)
    let holds := stalled s k (fetched s k)
    let fails := stackFails k (fetched s k)
    let issues (t : State) : Prop :=
      (holds = false → fails = false → ∃ j, t.helm.run = some j ∧ j.upc = k.next) ∧
      (holds = true → t.helm.run = some k ∧ t.helm.waited = true ∧ t.arr = s.arr) ∧
      (holds = false → fails = true → k.req.owner = .firmware → s.ttb.ckWait = false → t.arr = s.arr ∧
        (reg t Reg.hlmStat &&& hSTKERR) = hSTKERR ∧
        t.helm.run = if outstandingHere s.helm = true then some { k with halt := some 2 } else none)
    ((∀ x ∈ keys, x ∈ s.fry.fresh) →
      ∃ t, exec .halowComplete s = .next t ∧ t.helm.halow = none ∧ issues t ∧ t.fry.slots = s.fry.slots ∧
        ((holds = true ∨ fails = false) → t.fry.fresh = s.fry.fresh.filter (fun x => decide (x ∉ keys)) ∧
          ∀ x, storeGet 0 t.fry.waits x = storeGet 0 s.fry.waits x + keys.count x)) ∧
    ((∃ x ∈ keys, x ∉ s.fry.fresh) → edgeOpen s w.side = false →
      ∃ t, exec .halowComplete s = .next t ∧ t.helm.halow = none ∧ issues t ∧
        t.fry.slots = (haloFill s w.side missing).fry.slots) ∧
    ((∃ x ∈ keys, x ∉ s.fry.fresh) → edgeOpen s w.side = true → exec .halowComplete s = .next s) ∧
    ((∃ x ∈ keys, x ∉ s.fry.fresh) → edgeOpen s w.side = true → w.since + 1000 * getField s Reg.fryTmo 7 0 < s.now →
      ∃ t, exec .halowTimeout s = .next t ∧ t.helm.halow = none ∧ issues t ∧
        t.fry.slots = (haloFill s w.side missing).fry.slots ∧ getFlag t Reg.fryEvt 3 = true ∧
          (fails = false → t.mem = s.mem)) ∧
    ((s.now ≤ w.since + 1000 * getField s Reg.fryTmo 7 0 ∨ edgeOpen s w.side = false) →
      exec .halowTimeout s = .next s))

/-- R84, R104 to R108, R110: a kernel that firmware submits enters its queue, the head of the urgent queue starts
before that of the normal queue with a cleared context, an ended kernel reports its slots, its KID and its status, STOP
waits for the next landing, and FLUSHQ completes the kernels of the normal queue with STOPPED. That firmware finds the
status of its own kernels in a list is the model's choice (log entry 158).

R78, R80, R109, R111, R114, R117: a preempted kernel resumes with its context, with the STOP that waited for it,
and with the latches that planes 4080 to 4084 hold; a gap between landings beyond HLM_LSPAN.LIMIT sets LANDLATE once;
a fetched microword that fails its parity, with no SEQ of its own, or whose CALL or RET fails, stops the kernel,
whose status waits for the work of module scope alone. The count of the ACLK of a gap is the model's choice (log
entry 165), and so is that the word stays bad until it is written again (log entry 41). -/
def Obligations.KernelsAreQueuedStartedAndEnded : Prop :=
  (∀ (s : State) (wr : Writer),
    (writerMay s wr Reg.hlmKsubGo = true →
      let q := kernelOfBlock (stagedBlock s Reg.hlmKsub) .firmware
      (runs s = false → exec (.kernelSubmit wr) s = .next (setReg s Reg.hlmKsubStat 2)) ∧
      (runs s = true → q.urgent = false → s.helm.nq.length < 64 → exec (.kernelSubmit wr) s =
        .next { setReg s Reg.hlmKsubStat 0 with helm := { s.helm with nq := s.helm.nq ++ [q] } }) ∧
      (runs s = true → q.urgent = true → s.helm.uq.length < 8 → exec (.kernelSubmit wr) s =
        .next { setReg s Reg.hlmKsubStat 0 with helm := { s.helm with uq := s.helm.uq ++ [q] } }) ∧
      (runs s = true → (q.urgent = false ∧ 64 ≤ s.helm.nq.length ∨ q.urgent = true ∧ 8 ≤ s.helm.uq.length) →
        exec (.kernelSubmit wr) s = .next (setReg s Reg.hlmKsubStat 1))) ∧
    (mayStart s = true →
      (∀ q l, s.helm.uq = q :: l → exec .kernelStart s =
        .next { s with helm := { s.helm with uq := l, run := some (freshContext q), landing := true, gap := 0,
                                             gapLate := false, gapBase := 0, gapAt := s.now } }) ∧
      (∀ q l, s.helm.uq = [] → s.helm.preempted = none → s.helm.nq = q :: l → exec .kernelStart s =
        .next { s with helm := { s.helm with nq := l, run := some (freshContext q), landing := true, gap := 0,
                                             gapLate := false, gapBase := 0, gapAt := s.now } })) ∧
    (∀ k, s.helm.run = some k → outstanding s.helm = false → s.ttb.ckWait = false →
      (k.halt = none → k.ended = true ∧ s.helm.held = false ∧ s.helm.paused = false ∧ stopOrdered s = none) →
      let status : BitVec 4 := BitVec.ofNat 4 (match k.halt with
        | some status => status
        | none => if k.fpev = true ∨ raisedFlags s k.req.trap ≠ 0 then 6 else 0)
      ∃ t, exec .kernelEnd s = .next t ∧ t.helm.run = none ∧ reg t Reg.hlmRkid = k.req.kid.zeroExtend 32 ∧
        KernelReported s t k.req status (k.slots[0].zeroExtend 32) ∧
        (∀ i (h : i < 16), reg t (Reg.hlmRslot + 4 * i) = (k.slots[i]).zeroExtend 32) ∧
        t.helm.nq = s.helm.nq ∧ t.helm.uq = s.helm.uq ∧ t.arr.planes = s.arr.planes ∧
        (k.req.owner = .firmware → t.mem = s.mem)) ∧
    (writerMay s wr Reg.hlmCmd = true → s.helm.run.isSome = true →
      exec (.stop wr) s = .next { s with helm := { s.helm with stopReq := true } }) ∧
    (writerMay s wr Reg.hlmCmd = true → s.ttb.ckWait = false →
      ∃ t, exec (.flushq wr) s = .next t ∧ t.helm.nq = [] ∧ t.helm.run = s.helm.run ∧ t.arr = s.arr ∧
        t.helm.told = s.helm.told ++ (s.helm.nq.filter fun k => decide (k.owner = .firmware)).map (fun k => (k.kid, 4)) ∧
        (∀ k ∈ s.helm.nq, ∀ sail pass idx e, k.owner = .timetable sail pass idx → AwaitsUnit s sail pass idx e →
          (estAt t idx).state = .failed ∧ (estAt t idx).ustat = 4) ∧
        (∀ k, s.helm.nq = [k] → KernelReported s t k 4 0))) ∧
  (∀ (s : State),
    let stopped (k : KernelCtx) (status : Nat) : Option KernelCtx :=
      if outstandingHere s.helm = true then some { k with halt := some status } else none
    (∀ k, s.helm.preempted = some k → s.hx1 = true → runs s = true → s.helm.run = none → s.helm.uq = [] →
      s.helm.held = false → s.helm.dbgHalt = false → s.helm.paused = false → s.flt.repair = none →
      ∃ t, exec .kernelResume s = .next t ∧ t.helm.run = some { k with stop := false } ∧ t.helm.stopReq = k.stop ∧
        t.helm.preempted = none ∧ t.helm.landing = true ∧ t.helm.gap = 0 ∧ t.helm.gapAt = s.now ∧
        t.arr.c = planeBits s 4080 &&& livePes s ∧ t.arr.d = planeBits s 4081 &&& livePes s ∧
        t.arr.x = planeBits s 4082 &&& livePes s ∧ t.arr.m = planeBits s 4083 &&& livePes s ∧
        t.arr.q = planeBits s 4084 &&& livePes s ∧ t.arr.planes = s.arr.planes) ∧
    (∀ n, s.hx1 = true → s.helm.run.isSome = true → getField s Reg.hlmLspan 15 0 ≠ 0 →
      getField s Reg.hlmLspan 15 0 < n → gapNow s ≤ n → s.helm.gapLate = false →
      exec (.landlate n) s = .next { s with
        helm := { s.helm with gap := n, gapLate := true }
        regs := storePut 0 s.regs Reg.hlmStat (reg s Reg.hlmStat ||| 0x400) }) ∧
    (∀ k, mayIssue s = some k → k.req.owner = .firmware → s.ttb.ckWait = false →
      ∃ t, exec .controlStoreParityError s = .next t ∧
        t.helm.run = stopped k 5 ∧
        t.helm.parityBad.any (fun p => decide (p.1 = k.next.toNat)) = true ∧
        (reg t Reg.hlmStat).getLsbD 11 = true ∧ t.arr = s.arr ∧ ∀ r ∈ t.helm.red, r.inst = none) ∧
    (∀ k m, mayIssue s = some k → debugHolds s.helm = false → parityFails s k = false → fetched s k = m →
      (m.spec = 0 ∨ 6 < m.spec) → k.req.owner = .firmware → s.ttb.ckWait = false →
      ((m.seq = 0 ∨ 8 ≤ m.seq) → ∃ t, exec .microwordIssue s = .next t ∧ t.helm.run = stopped k 1 ∧ t.arr = s.arr ∧
        (reg t Reg.hlmStat &&& hILLSEQ) = hILLSEQ) ∧
      (1 ≤ m.seq → m.seq ≤ 7 → stalled s k m = false → stackFails k m = true →
        ∃ t, exec .microwordIssue s = .next t ∧ t.helm.run = stopped k 2 ∧ t.arr = s.arr ∧
          (reg t Reg.hlmStat &&& hSTKERR) = hSTKERR)))

/-- R105, R109 to R114, R199, R506: at a landing with nothing outstanding the highest request is acted on: the fault
stop, the Warden's hold, the debug halt, ABANDON, an urgent kernel, STOP; with none the landing passes. Between a kernel's
END and its report a fault stop is taken, and at a stall on another unit a hold. A kernel's status goes to its submitter,
whether firmware, the timetable or a queue pair. -/
def Obligations.LandingActsOnHighestRequest : Prop :=
  ∀ (s : State), s.hx1 = true →
    let stops (r : Repair) : Prop := ∃ t, exec .landing s = .next t ∧ t.helm.run = none ∧ t.helm.preempted = none ∧
      t.flt.repair = some { r with
        step := .substituting
        clearEnd := if r.orders.any (fun o => o.tile.isSome) then s.now + aclkTime s 2048 else s.now }
    (∀ r, stopOrdered s = some r → outstanding s.helm = false → (s.helm.landing = true ∨ s.helm.run = none ∨
      ∃ k, s.helm.run = some k ∧ k.ended = true ∧ k.halt = none) → stops r) ∧
    (stopOrdered s = none → s.helm.holdReq = true → debugHolds s.helm = false → s.helm.landing = false →
      unitStall s = true → outstandingHere s.helm = false →
      exec .landing s = .next { s with helm := { s.helm with held := true, holdReq := false } }) ∧
    ((s.helm.landing = true ∨ s.helm.run = none) → outstanding s.helm = false → stopOrdered s = none →
      s.helm.held = false →
      (s.helm.holdReq = true → ∃ t, exec .landing s = .next t ∧ t.helm.held = true ∧ t.helm.holdReq = false ∧
        t.helm.run = s.helm.run ∧ t.arr = s.arr) ∧
      (s.helm.holdReq = false → s.helm.dbgHalt = false →
        (s.helm.dbgReq = true → ∃ t, exec .landing s = .next t ∧ t.helm.dbgHalt = true ∧ t.helm.dbgReq = false ∧
          t.helm.run = s.helm.run ∧ t.arr = s.arr) ∧
        (s.helm.dbgReq = false → ∀ k, s.helm.run = some k →
          let ends (status : BitVec 4) : Prop :=
            ∃ t, exec .landing s = .next t ∧ t.helm.run = none ∧ t.helm.stopReq = false ∧ t.arr = s.arr ∧
              (s.ttb.ckWait = false → KernelReported s t k.req status (k.slots[0].zeroExtend 32))
          let preempts : Prop := k.req.urgent = false ∧ s.helm.uq ≠ [] ∧ s.helm.preempted = none
          (k.req.abandoned = true → ends 3) ∧
          (k.req.abandoned = false → preempts →
            ∃ t, exec .landing s = .next t ∧ t.helm.run = none ∧ t.helm.uq = s.helm.uq ∧ t.helm.stopReq = false ∧
              t.helm.preempted = some { k with stop := s.helm.stopReq } ∧
              ∀ x ∈ [(4080, s.arr.c), (4081, s.arr.d), (4082, s.arr.x), (4083, s.arr.m), (4084, s.arr.q)],
                planeBits t x.1 &&& livePes s = x.2 &&& livePes s) ∧
          (k.req.abandoned = false → ¬ preempts → s.helm.stopReq = true → ends 4) ∧
          (k.req.abandoned = false → ¬ preempts → s.helm.stopReq = false →
            ∃ t, exec .landing s = .next t ∧ t.helm.run = some k ∧ t.helm.landing = false ∧
              t.arr = s.arr ∧ t.mem = s.mem)) ∧
        (s.helm.dbgReq = false → s.helm.run = none → ∃ t, exec .landing s = .next t ∧ t.helm.run = none ∧
          t.helm.nq = s.helm.nq ∧ t.helm.uq = s.helm.uq ∧ t.arr = s.arr ∧ t.mem = s.mem)))

/-- R118 to R121, R209: the patch window: a request is noted, and under GRANT not withdrawn; it is granted only with the
Helm idle after a tick, and a
commit whose CRC is right names the new microcode and closes the window; the head floating-point event is popped. -/
def Obligations.PatchWindowOpensAndCommits : Prop :=
  ∀ (s : State) (wr : Writer) (v : Word),
    (writerMay s wr Reg.hlmPatch = true →
      (bit (reg s Reg.hlmPatch) 1 = true → bit v 0 = false → exec (.patchRequest wr v) s = .next s) ∧
      (bit (reg s Reg.hlmPatch) 1 = false ∨ bit v 0 = true → exec (.patchRequest wr v) s =
        .next (setReg s Reg.hlmPatch (
          (if bit (reg s Reg.hlmPatch) 2 && !bit v 2 then 4 else 0) |||
          (if bit (reg s Reg.hlmPatch) 1 then 2 else 0) ||| (if bit v 0 then 1 else 0))))) ∧
    (s.hx1 = true → bit (reg s Reg.hlmPatch) 0 = true → bit (reg s Reg.hlmPatch) 1 = false → s.helm.run = none →
      s.helm.preempted = none → s.helm.nq = [] → s.helm.uq = [] → s.ttb.ticked = true →
      s.ttb.sentFor = some s.ttb.sail →
      exec .patchGrant s = .next (setFlag s Reg.hlmPatch 1)) ∧
    (writerMay s wr Reg.hlmPatchCommit = true → bit (reg s Reg.hlmPatch) 1 = false →
      exec (.hlmPatchCommit wr) s = .next (setReg s Reg.hlmPatchCstat 1)) ∧
    (writerMay s wr Reg.hlmPatchCommit = true → bit (reg s Reg.hlmPatch) 1 = true →
      storeCrc s.helm.store = reg s Reg.hlmPatchCrc →
      ∃ t, exec (.hlmPatchCommit wr) s = .next t ∧ reg t Reg.hlmUcodeVer = reg s Reg.hlmPatchVer ∧
        reg t Reg.hlmUcodeCrc = reg s Reg.hlmPatchCrc ∧ reg t Reg.hlmPatchCstat = 0 ∧
        bit (reg t Reg.hlmPatch) 0 = false ∧ bit (reg t Reg.hlmPatch) 1 = false ∧ t.helm = s.helm) ∧
    (writerMay s wr Reg.hlmPatchCommit = true → bit (reg s Reg.hlmPatch) 1 = true →
      storeCrc s.helm.store ≠ reg s Reg.hlmPatchCrc →
      exec (.hlmPatchCommit wr) s = .next (setReg s Reg.hlmPatchCstat 2)) ∧
    (writerMay s wr Reg.hlmFpevPop = true →
      exec (.hlmFpevPop wr) s = .next { s with helm := { s.helm with fpq := s.helm.fpq.tail } })

/-! ## Loader and Timetable unit -/

/-- R213, R216, R220, R222, R223, R225, R226, R231: a transfer that firmware submits is refused outside the running
modes, at a full queue, and by the checks, and else queued; a steal, when the Loader's share is owed and only then,
holds the Helm for an ACLK; a completed transfer commits its live width and reports its status to its submitter, whether
firmware, the timetable or a queue pair. Which planes the Loader holds ready, and so when the share is owed, is the
model's choice (log entry 166). -/
def Obligations.TransfersAreQueuedAndReported : Prop :=
  ∀ (s : State) (wr : Writer),
    (writerMay s wr Reg.ldrXsubGo = true → ∀ p ∈ [(Instr.ldrXsubLoad wr, true), (Instr.ldrXsubStore wr, false)],
      let b := stagedBlock s Reg.ldrXsub
      (runs s = false → exec p.1 s = .next (setReg s Reg.ldrXsubStat 2)) ∧
      (runs s = true → 32 ≤ s.ldr.queue.length → exec p.1 s = .next (setReg s Reg.ldrXsubStat 1)) ∧
      (runs s = true → s.ldr.queue.length < 32 → checkTransfer s (Xfer.of b) p.2 = 0 →
        exec p.1 s = .next { setReg s Reg.ldrXsubStat 0 with
          ldr := { s.ldr with queue := s.ldr.queue ++ [⟨b, p.2, .firmware⟩] } }) ∧
      (runs s = true → s.ldr.queue.length < 32 → checkTransfer s (Xfer.of b) p.2 ≠ 0 →
        ∃ t, exec p.1 s = .next t ∧ t.ldr = s.ldr ∧ t.plt.ldrReq = true ∧
          reg t Reg.ldrLast = BitVec.ofNat 32 ((Xfer.of b).xid * 65536 + checkTransfer s (Xfer.of b) p.2))) ∧
    (∀ k p, mayIssue s = some k → debugHolds s.helm = false → stalled s k (fetched s k) = false → slotsWait s = false →
      s.helm.steal = false → getField s Reg.hlmShare 5 0 ≠ 0 → p ∈ slotNeeds s →
      64 / getField s Reg.hlmShare 5 0 - 1 ≤ s.helm.noSlot.of p.1 p.2 → ∃ t, exec .loaderSteal s = .next t ∧
      t.helm.steal = true ∧ t.helm.gap = s.helm.gap + 1 ∧ t.helm.noSlot = NoSlot.zero ∧ t.helm.run = s.helm.run ∧
      t.arr = s.arr ∧ (reg t Reg.ldrSteal).toNat = min ((reg s Reg.ldrSteal).toNat + 1) 0xFFFFFFFF) ∧
    ((getField s Reg.hlmShare 5 0 = 0 ∨ mayIssue s = none ∨ s.helm.steal = true ∨
      (∀ p ∈ slotNeeds s, s.helm.noSlot.of p.1 p.2 < 64 / getField s Reg.hlmShare 5 0 - 1)) →
      exec .loaderSteal s = .next s) ∧
    (∀ r, s.ldr.run = some r → slotsWait s = false → r.waits = false →
      ∃ t, exec .transferComplete s = .next t ∧ t.arr = s.arr ∧ TransferReported s t r.tr r.status ∧
        t.ldr = { s.ldr with run := none, bytes := s.ldr.bytes + r.moved } ∧
        (r.tr.owner = .firmware → t.mem = s.mem ∧
          reg t Reg.ldrLast = BitVec.ofNat 32 ((Xfer.of r.tr.blk).xid * 65536 + r.status.toNat)) ∧
        (∀ n v, r.width = some (n, v) → t.helm.desc = storePut 0 s.helm.desc n
          (descWithLw (descAt s n) (min v (descDw (descAt s n))) &&& descMask)) ∧
        (r.width = none → t.helm = s.helm))

/-- R212, R214, R221, R224: a load that begins writes, in every PE of its window whose row is not lost, each plane of
its target with a bit of the PE's element or of its extension; no other PE changes, but of a variable that stood below
its declared width, and no other plane and no byte of memory. While the array is closed to the Loader it writes
nothing. That the data move at the start of the transfer, and that the staging planes 4088 to 4091 stay, is the model's
choice (log entries 47 and 164). -/
def Obligations.LoadFillsItsWindow : Prop :=
  ∀ (s : State) (tr : Transfer) (rest : List Transfer), loaderFree s = true → s.ldr.queue = tr :: rest →
    tr.load = true → PlainTransfer s (Xfer.of tr.blk) →
    let x := Xfer.of tr.blk
    let w := (xferShape s x).1
    let base := (xferShape s x).2.1
    let signed := (xferShape s x).2.2
    let inside (r c : Nat) : Prop := x.r0 ≤ r ∧ r < x.r0 + x.h ∧ x.c0 ≤ c ∧ c < x.c0 + x.wn
    ∃ t, exec .transferStart s = .next t ∧ t.ldr.queue = rest ∧ t.ldr.run.isSome = true ∧ t.mem.bytes = s.mem.bytes ∧
      (slotsWait s = true → t.arr = s.arr ∧ ∃ q, t.ldr.run = some q ∧ q.waits = true) ∧
      (slotsWait s = false → ∀ k < w, ∀ r < 1024, ∀ c < 1024,
        (inside r c → (livePes s).getLsbD (1024 * r + c) = true →
          (planeBits t (base + k)).getLsbD (1024 * r + c) = elementBit s x signed (r - x.r0) (c - x.c0) k) ∧
        (¬ inside r c → (x.abs = true ∨ descLw (descAt s x.target) = w) ∨ (livePes s).getLsbD (1024 * r + c) = false →
          (planeBits t (base + k)).getLsbD (1024 * r + c) = (planeBits s (base + k)).getLsbD (1024 * r + c))) ∧
      (∀ p, (p < base ∨ base + w ≤ p) → planeBits t p = planeBits s p) ∧
      t.arr.c = s.arr.c ∧ t.arr.d = s.arr.d ∧ t.arr.x = s.arr.x ∧ t.arr.m = s.arr.m ∧ t.arr.q = s.arr.q

/-- R212, R215: a store of a window whose elements share no bit of memory, in any container and any map, writes, as it
begins, every element with the bits of its planes and their extension; no other bit of memory, no plane and no latch
changes. That the data move at the start of the transfer, and that the staging planes 4088 to 4091 stay, is the model's
choice (log entries 47 and 164). -/
def Obligations.StoreFillsItsContainers : Prop :=
  ∀ (s : State) (tr : Transfer) (rest : List Transfer), loaderFree s = true → s.ldr.queue = tr :: rest →
    tr.load = false → slotsWait s = false → PlainTransfer s (Xfer.of tr.blk) → ElementsApart (Xfer.of tr.blk) →
    let x := Xfer.of tr.blk
    let w := (xferShape s x).1
    let signed := (xferShape s x).2.2
    ∃ t, exec .transferStart s = .next t ∧ t.ldr.queue = rest ∧ t.ldr.run.isSome = true ∧ t.arr = s.arr ∧
      (∀ j < x.h, ∀ i < x.wn, ∀ k < (if x.cont = 0 then 1 else 8 * x.size),
        (elementValue t x j i).testBit k = storedBit s x w signed k (1024 * (x.r0 + j) + x.c0 + i)) ∧
      (∀ a b, b < 8 → (∀ j < x.h, ∀ i < x.wn,
          let e := elementBits x j i
          8 * a + b < 8 * x.base + e.1 ∨ 8 * x.base + e.1 + e.2 ≤ 8 * a + b) →
        (memByte t a).getLsbD b = (memByte s a).getLsbD b)

/-- R233, R234, R257: a completed checkpoint stands in module DRAM, a plane after the other and then the live
widths; a restore gives the planes back what was copied, and the descriptors their live widths, but for one that would
make its entry faulty (R98). -/
def Obligations.CheckpointIsCopiedAndRestored : Prop :=
  ∀ (s : State), s.mem.damage = [] → s.arr.damage = [] → slotsWait s = false →
    (∀ planes sail, s.ldr.ckpt = some (planes, sail) → s.ldr.run = none → s.flt.repair = none → s.wdn.held = false →
      ∃ t, exec .checkpointComplete s = .next t ∧ t.ttb.ckDone = true ∧ t.ldr.ckpt = none ∧ t.ldr.ckPlanes = planes ∧
        (∀ i (h : i < planes.length), ∀ b < 131072, memByte t (s.ldr.ckBase + i * 131072 + b) =
          BitVec.ofNat 8 ((planeBits s planes[i] &&& livePes s).toNat / 256 ^ b)) ∧
        (∀ n < 1024, memByte t (s.ldr.ckBase + planes.length * 131072 + n) = BitVec.ofNat 8 (descLw (descAt s n))) ∧
        (∀ a, (a < s.ldr.ckBase ∨ s.ldr.ckBase + planes.length * 131072 + 1024 ≤ a) → memByte t a = memByte s a)) ∧
    (∀ planes r, s.ldr.restore = some planes → s.flt.repair = some r → s.wdn.held = false → r.step = .restoring →
      r.later = [] →
      planes.Nodup →
      ∃ t, exec .restoreComplete s = .next t ∧ t.ldr.restore = none ∧ t.flt.repair = none ∧
        (∀ i (h : i < planes.length), ∀ n < peCount, (livePes s).getLsbD n = true →
          (planeBits t planes[i]).getLsbD n = (memByte s (s.ldr.ckBase + i * 131072 + n / 8)).getLsbD (n % 8)) ∧
        (∀ n < 1024,
          let v := (memByte s (s.ldr.ckBase + planes.length * 131072 + n)).toNat % 128
          let d := descWithLw (descAt s n) v
          descAt t n = if descBad d = true then descAt s n else d &&& descMask) ∧
        (∀ p, p ∉ planes → planeBits t p = planeBits s p))

/-- R10, R238 to R241, R244, R439: with nothing ordered for the tick, a tick from an accepted edge, from the timer, at
the loss of the source with FALLBACK set, or behind a tick message opens the next sailing.

R257, R258, R260: at a tick, a missed sailing under EXTEND keeps its pass and the new sailing is skipped; in every
other case a pass of the new sailing starts at the tick. -/
def Obligations.TicksOpenSailingsUnderTheirPolicy : Prop :=
  (∀ (s : State) (j : BitVec 16), takesTicks s = true → NoOrders s →
    let opens (c : Instr) (src : BitVec 2) : Prop :=
      ∃ t, exec c s = .next t ∧ t.ttb.sail = s.ttb.sail + 1 ∧ t.ttb.ticked = true ∧ t.ttb.lastTick = s.now ∧
        t.ttb.srcUsed = src ∧ t.mode = s.mode ∧ t.fab.sail = s.ttb.sail + 1 ∧ t.now = s.now
    (∀ d l, s.ttb.tickDue = d :: l → d ≤ s.now → opens (.tick j) 0) ∧
    (timerTicks s = true → activePeriod s ≠ 0 → s.ttb.lastTick + activePeriod s * 1000 ≤ s.now →
      opens (.timerTick j) 1) ∧
    ((tickSrc s = 0 ∨ tickSrc s = 2) → s.ttb.srcLost = false → activePeriod s ≠ 0 →
      s.ttb.lastTick + activePeriod s * (100 + bits s.ttb.src 23 17) * 10 ≤ s.now →
      (bit s.ttb.src 3 = true → opens (.tickSourceLoss j) 1) ∧
      (bit s.ttb.src 3 = false →
        exec (.tickSourceLoss j) s = .next { s with ttb := { s.ttb with srcLost := true } })) ∧
    (∀ at_ m, s.fry.due = some (at_, m) → tickSrc s = 2 → at_ ≤ s.now → opens (.ferryTick j) 2)) ∧
  (∀ (s : State) (j : BitVec 16) (d : Nat) (l : List Nat), takesTicks s = true → NoOrders s → s.ttb.tickDue = d :: l →
    d ≤ s.now →
    (missedNow s = true → s.ttb.cur.policy = 1 →
      ∃ t, exec (.tick j) s = .next t ∧ t.ttb.passSail = s.ttb.passSail ∧ t.ttb.pass = s.ttb.pass ∧
        t.ttb.cur = s.ttb.cur ∧ t.ttb.phase = .extending ∧ t.ttb.flags.getLsbD 1 = true) ∧
    ((missedNow s = false ∨ s.ttb.cur.policy ≠ 1) →
      ∃ t, exec (.tick j) s = .next t ∧ t.ttb.passSail = s.ttb.sail + 1 ∧ t.ttb.pass = 0 ∧ t.ttb.base = s.now ∧
        t.ttb.tickAt = s.now))

/-- R239, R242, R243, R60: an edge of the selected polarity that is held long enough orders a tick 40 ns later, unless
it comes too early, which is counted; a commit of TTB_SRC takes effect after the next tick, or is refused with
NOUPSTREAM; FRAME_SYNC_OUT falls at its end; the clock pause ends when its time has come, and not before. That an edge
accepted but not yet taken counts as the previous tick is inferred (log entry 56). -/
def Obligations.TickSourcesAndOutputs : Prop :=
  ∀ (s : State) (wr : Writer),
    (∀ (f : Bool) (ps : Nat), takesTicks s = true → tickSrc s = 0 → bit s.ttb.src 2 = f → 11400 ≤ ps →
      let prev := s.ttb.tickDue.getLast?.getD s.ttb.lastTick
      ((s.ttb.ticked = false ∨ activePeriod s = 0 ∨
          activePeriod s * 1000 * bits s.ttb.src 16 10 ≤ (s.now - prev) * 100) →
        exec (.frameSyncInEdge f ps) s =
          .next { s with ttb := { s.ttb with tickDue := s.ttb.tickDue ++ [s.now + 40] } }) ∧
      (s.ttb.ticked = true → activePeriod s ≠ 0 →
        (s.now - prev) * 100 < activePeriod s * 1000 * bits s.ttb.src 16 10 →
        exec (.frameSyncInEdge f ps) s = .next (setField s Reg.ttbCnt 31 24 (min (getField s Reg.ttbCnt 31 24 + 1) 255)))) ∧
    (∀ (f : Bool) (ps : Nat), (bit s.ttb.src 2 ≠ f ∨ ps ≤ 10000) → exec (.frameSyncInEdge f ps) s = .next s) ∧
    (writerMay s wr Reg.ttbSrcCommit = true →
      (bits (reg s Reg.ttbSrc) 1 0 = 2 → upstreamSet s = false →
        exec (.ttbSrcCommit wr) s = .next (setReg s Reg.ttbSrcCstat 1)) ∧
      ((bits (reg s Reg.ttbSrc) 1 0 ≠ 2 ∨ upstreamSet s = true) → exec (.ttbSrcCommit wr) s =
        .next { setReg s Reg.ttbSrcCstat 0 with ttb := { s.ttb with srcNext := some (reg s Reg.ttbSrc) } })) ∧
    (∀ t, s.ttb.syncEnd = some t → t ≤ s.now → s.wdn.held = false → exec .frameSyncOutEnd s =
      .next { s with ttb := { s.ttb with syncOut := false, syncEnd := none } }) ∧
    (s.helm.paused = true → s.helm.pauseEnd ≤ s.now → s.ttb.ckWait = false →
      (∀ r, s.ldr.run = some r → r.waits = false) →
      exec .clockPauseEnd s = .next { s with
        helm := { s.helm with paused := false, noSlot := NoSlot.zero }
        ttb := { s.ttb with openAt := s.now } }) ∧
    (s.now < s.helm.pauseEnd → exec .clockPauseEnd s = .next s)

/-- R248, R254, R256, R595: a released entry that no lower one of the same instant precedes goes to its unit: a
KERNEL to the Helm's queue, a LOAD or STORE to the Loader's, a NOTIFY to the notification queue; a JOIN is done; a
NOTIFY that waits for its acknowledgement is done when TTB_ACK names it; an entry unfinished at its deadline is LATE
and runs on. That entries ready at one reading of the clock are of one NCLK is inferred (log entry 173). -/
def Obligations.EntriesGoToTheirUnits : Prop :=
  ∀ (s : State) (i : BitVec 8) (e : Entry),
    (releasable s i.toNat = some e → lowerFirst s i.toNat e = true → exec (.entryRelease i) s = .next s) ∧
    (releasable s i.toNat = some e → lowerFirst s i.toNat e = false →
      (e.type = 0 ∨ e.type = 4 → ∃ t, exec (.entryRelease i) s = .next t ∧ (estAt t i.toNat).state = .done) ∧
      (e.type = 1 → s.ttb.ckDone = true →
        let k := kernelOfBlock e.payload (.timetable s.ttb.passSail s.ttb.pass i.toNat)
        k.urgent = false → s.helm.nq.length < 64 →
        exec (.entryRelease i) s = .next { s with
          ttb := { s.ttb with est := s.ttb.est.set i.toNat { estAt s i.toNat with state := .submitted } }
          helm := { s.helm with nq := s.helm.nq ++ [k] } }) ∧
      (∀ ld : Bool, e.type = (if ld then 2 else 3) → s.ldr.queue.length < 32 →
        checkTransfer s (Xfer.of e.payload) ld = 0 →
        exec (.entryRelease i) s = .next { s with
          ttb := { s.ttb with est := s.ttb.est.set i.toNat { estAt s i.toNat with state := .submitted } }
          ldr := { s.ldr with queue := s.ldr.queue ++
            [⟨e.payload, ld, .timetable s.ttb.passSail s.ttb.pass i.toNat⟩] } }) ∧
      (5 ≤ e.type.toNat → exec (.entryRelease i) s = .next { s with
        ttb := { s.ttb with est := s.ttb.est.set i.toNat { estAt s i.toNat with state := .notifying } } })) ∧
    (entryAt s i.toNat = some e →
      (s.hx1 = true → s.wdn.held = false → (estAt s i.toNat).state = .notifying → s.ttb.cut = false →
        s.ttb.ntf.length < 16 →
        i.toNat < s.ttb.est.length →
        ∃ t, exec (.notifyRecordPost i) s = .next t ∧
          t.ttb.ntf = s.ttb.ntf ++ [⟨i.toNat, e.tag, e.payload, s.ttb.sail, s.ttb.pass⟩] ∧
          (estAt t i.toNat).state = (if e.ack then .acking else .done)) ∧
      (s.hx1 = true → runs s = true → s.wdn.held = false → passRuns s = true → s.ttb.marked = false → e.deadline ≠ 0 →
        e.deadline * 1000 ≤ s.now - s.ttb.base → (estAt s i.toNat).finished = false → (estAt s i.toNat).late = false →
        i.toNat < s.ttb.est.length →
        ∃ t, exec (.deadlineExpiry i) s = .next t ∧ estAt t i.toNat = { estAt s i.toNat with late := true } ∧
          t.ttb.passFlags = s.ttb.passFlags ||| 8 ∧ t.helm = s.helm ∧ t.ldr = s.ldr) ∧
      (∀ wr v, writerMay s wr Reg.ttbAck = true → bits v 7 0 = i.toNat → (estAt s i.toNat).state = .acking →
        s.ttb.cut = false → ∃ t, exec (.ttbAck wr v) s = .next t ∧ (estAt t i.toNat).state = .done)) ∧
    (∀ wr, writerMay s wr Reg.ttbNtfPop = true →
      exec (.ttbNtfPop wr) s = .next { s with ttb := { s.ttb with ntf := s.ttb.ntf.tail } })

/-- R249 to R251, R290: a commit of a slot takes its image when every check passes and keeps the slot otherwise; a
switch to a slot that is not VALID is refused, and a descriptor's switch of the same instant stands; a completion of
an entry is posted when its queue has room, and the entry is then finished. That a switch of the same reading of the
clock is of the same NCLK, and that a commit before the first tick acts at once, is inferred (log entries 173 and 201). -/
def Obligations.TimetablesAreCommittedAndSwitched : Prop :=
  ∀ (s : State) (wr : Writer),
    (writerMay s wr Reg.ttbTloadCommit = true → s.ttb.tload = none → exec (.ttbTloadCommit wr) s =
      .next (setReg { s with ttb := { s.ttb with tload := some (BitVec.ofNat 4 (getField s Reg.ttbTload 3 0)) } }
        Reg.ttbTloadCstat 8)) ∧
    (∀ n u img, s.ttb.tload = some n → slotImage s n.toNat = (u, img) →
      let code := (checkImage img).1
      ∃ t, exec .tloadCommitDone s = .next t ∧ t.ttb.tload = none ∧
        reg t Reg.ttbTloadCstat = BitVec.ofNat 32 ((checkImage img).2 * 256 + code) ∧
        (code ≠ 0 → t.ttb.slots = s.ttb.slots ∧ t.ttb.staged = s.ttb.staged) ∧
        (code = 0 → s.ttb.ticked = true → n = s.ttb.active →
          t.ttb.staged = some (parseTimetable img) ∧ t.ttb.slots = s.ttb.slots) ∧
        (code = 0 → (s.ttb.ticked = false ∨ n ≠ s.ttb.active) → slotOf t n.toNat = some (parseTimetable img) ∧
          ∀ m, m ≠ n.toNat → slotOf t m = slotOf s m)) ∧
    (writerMay s wr Reg.ttbSwCommit = true →
      let w : Switch :=
        ⟨BitVec.ofNat 4 (getField s Reg.ttbSw 3 0), BitVec.ofNat 48 (reg2 s Reg.ttbSwTgtLo Reg.ttbSwTgtHi),
          getFlag s Reg.ttbSw 4, none, s.now⟩
      (slotOf s w.slot.toNat = none → exec (.ttbSwCommit wr) s = .next (setReg s Reg.ttbSwCstat 1)) ∧
      (slotOf s w.slot.toNat ≠ none → (∀ o, s.ttb.pend = some o → o.bind = none) →
        exec (.ttbSwCommit wr) s = .next (setReg { s with ttb := { s.ttb with pend := some w } } Reg.ttbSwCstat 0)) ∧
      (∀ o, slotOf s w.slot.toNat ≠ none → s.ttb.pend = some o → o.bind.isSome = true → o.since = s.now →
        exec (.ttbSwCommit wr) s = .next (setReg s Reg.ttbSwCstat 0))) ∧
    (∀ c l, s.ttb.outq = c :: l → c.past = none → c.live = true → c.idx < s.ttb.est.length → c.idx < 256 → s.hx1 = true →
      (estAt s c.idx).state ≠ .pending →
      s.wdn.held = false →
      let q := c.qp.toNat
      let p := pairOf s q
      p.st = .active → p.cqSize ≠ 0 → s.que.d3 = false → cqRoom p = true →
      let entry := completionEntry s.ttb.sail c.tag p.sqHead c.status.toNat c.ustat.toNat s.ttb.pass true p.phase
        (BitVec.ofNat 32 (c.idx + 256 * s.ttb.passFlags.toNat))
      ∃ t, exec (.timetableCompletionPost 0) s = .next t ∧ (estAt t c.idx).posted = true ∧
        (∃ more, t.ttb.outq = l ++ more) ∧
        (pairOf t q).cqTail = (if p.cqTail + 1 = p.cqSize then 0 else p.cqTail + 1) ∧
        (p.ctype.toNat < 2 → ∃ more, t.out = s.out ++ Out.hostWrite (if p.ctype = 1 then some p.client else none)
          ((p.cqBase.toNat + 16 * p.cqTail) % 2 ^ 64) (bytesOf entry 16) false false false :: more))

/-! ## Queues, registers and the host -/

/-- R274, R278, R279, R282, R284, R289, R301, R302, R459: a MOVE whose accesses are done, a KERNEL whose kernel has ended,
and a PLANE_LOAD or PLANE_STORE whose transfer is complete post their status: at the CQ tail of the pair, whatever its
client, stands the entry of R289, with the pair's phase, and the tail has moved on; with NOCPL and status OK nothing is
written, nor for a descriptor that is discarded, and in D3hot the completion of a host client is kept; once posted or
discarded, the descriptor's CQ slot is no longer reserved. -/
def Obligations.CompletionIsWrittenToItsQueue : Prop :=
  ∀ (s : State) (q : BitVec 16) (pos : Nat),
    let disp := (pairOf s q.toNat).disp
    (∀ d st, disp.find? (fun x => decide (x.pos = pos)) = some d → d.work = .move st →
      ∃ t, exec (.moveComplete q pos) s = .next t ∧ Finished s t q pos st.toNat 0 0 ∧ t.arr = s.arr ∧
        ((pairOf s q.toNat).ctype ≠ 2 → t.mem = s.mem) ∧
        ((d.silent = true ∨ (pairOf s q.toNat).st = .error ∨ s.wdn.held = true) →
          (s.que.d3 = true → 2 ≤ (pairOf s q.toNat).ctype.toNat ∨ d.silent = true) →
          t.out = s.out ∧ (pairOf t q.toNat).cqTail = (pairOf s q.toNat).cqTail ∧
          (pairOf t q.toNat).disp = disp.filter fun x => decide (x.pos ≠ pos)) ∧
        (s.que.d3 = true → (pairOf s q.toNat).ctype.toNat < 2 → d.silent = false →
          t.out = s.out ∧ t.que.kept = s.que.kept ++ [(q.toNat, pos)] ∧
          (pairOf t q.toNat).disp.map (·.pos) = disp.map (·.pos))) ∧
    (∀ k, s.helm.run = some k → k.req.owner = .queue q pos → outstanding s.helm = false → s.ttb.ckWait = false →
      (k.halt = none → k.ended = true ∧ s.helm.held = false ∧ s.helm.paused = false ∧ stopOrdered s = none) →
      let status : BitVec 4 := BitVec.ofNat 4 (match k.halt with
        | some status => status
        | none => if k.fpev = true ∨ raisedFlags s k.req.trap ≠ 0 then 6 else 0)
      ∃ t, exec .kernelEnd s = .next t ∧ t.helm.run = none ∧
        Finished s t q pos (if status = 0 ∨ status = 6 then 0 else 7) status.toNat (k.slots[0].zeroExtend 32)) ∧
    (∀ r, s.ldr.run = some r → r.tr.owner = .queue q pos → slotsWait s = false → r.waits = false → r.status = 0 ∨
      r.status = 5 →
      ∃ t, exec .transferComplete s = .next t ∧ t.ldr.run = none ∧
        Finished s t q pos (if r.status = 0 then 0 else 9) r.status.toNat (BitVec.ofNat 32 (Xfer.of r.tr.blk).xid))

/-- R273, R275 to R277: a doorbell moves the tail or the head, or is refused, counted, and flagged. -/
def Obligations.DoorbellsMoveRingPointers : Prop :=
  ∀ (s : State) (q : BitVec 16) (v : Word), s.hx1 = true → s.wdn.held = false →
    let p := pairOf s q.toNat
    let n := bits v 15 0
    ((p.st = .free ∨ p.st = .draining ∨ p.open_ = false) →
      exec (.sqTailDoorbell q v) s = .next (doorbellRefused s 2) ∧
        exec (.cqHeadDoorbell q v) s = .next (doorbellRefused s 2)) ∧
    ((p.st = .active ∨ p.st = .error) → p.open_ = true → 2 ≤ p.ctype.toNat →
      exec (.sqTailDoorbell q v) s = .next (doorbellRefused s 3) ∧
        exec (.cqHeadDoorbell q v) s = .next (doorbellRefused s 3)) ∧
    ((p.st = .active ∨ p.st = .error) → p.open_ = true → p.ctype.toNat < 2 →
      (p.sqSize = 0 → exec (.sqTailDoorbell q v) s = .next s) ∧
      (p.sqSize ≠ 0 → p.sqSize ≤ n → exec (.sqTailDoorbell q v) s = .next (doorbellRefused s 1)) ∧
      (n < p.sqSize → exec (.sqTailDoorbell q v) s = .next (setPair s q.toNat { p with sqTail := n })) ∧
      ((p.cqSize ≤ n ∨ ringUsed p.cqHead p.cqTail p.cqSize < ringUsed p.cqHead n p.cqSize) →
        exec (.cqHeadDoorbell q v) s = .next (doorbellRefused s 1)) ∧
      (n < p.cqSize → ringUsed p.cqHead n p.cqSize ≤ ringUsed p.cqHead p.cqTail p.cqSize →
        exec (.cqHeadDoorbell q v) s = .next (setPair s q.toNat { p with cqHead := n })))

/-- R279 to R283, R285 to R287, R292 to R294, R301: a fetch takes the entries of the ring in order; a dispatched
descriptor goes to its unit, waits while the unit's queue is full, or completes with the status of the check it
fails; in LOAD it completes with NOTRUN. -/
def Obligations.DescriptorsAreFetchedAndDispatched : Prop :=
  ∀ (s : State) (q : BitVec 16),
    let p := pairOf s q.toNat
    (∀ resp, s.hx1 = true → s.wdn.held = false → getFlag s Reg.queCtl 0 = true → nextServed s = some q.toNat →
      p.ctype.toNat < 2 →
      (∀ bs, resp = .data bs → bs.length = 64 * readLength p → heldCount p + readLength p ≤ 64 →
        ∃ t, exec (.descriptorFetch q resp) s = .next t ∧
          pairOf t q.toNat = fetchedInto p (hostEntries bs (readLength p)) ∧
          (∀ n, n ≠ q.toNat → pairOf t n = pairOf s n) ∧ t.mem = s.mem ∧
          t.out = (readHost s p (p.sqBase.toNat + 64 * p.sqHead) (64 * readLength p) resp).out) ∧
      (∀ e bs, resp = .fail e bs → p.st = .active → ∃ t, exec (.descriptorFetch q resp) s = .next t ∧
        (pairOf t q.toNat).st = .error ∧
        (pairOf t q.toNat).fetched = [])) ∧
    (∀ f, readyHead s q.toNat = some f →
      (f.bad = true → exec (.badop q) s = .next (finished s q f 9 0)) ∧
      (f.bad = false → opcAllowed (opcOf f.raw) q.toNat p.ctype = false →
        exec (.badop q) s = .next (finished s q f (if runs s = true ∨ opcOf f.raw = 9 then 1 else 6) 0))) ∧
    (∀ resp n, runs s = false → ∀ c ∈ unitCommands q resp n, ∀ f, Dispatches s q c.1 f →
      exec c.2 s = .next (finished s q f 6 0)) ∧
    (runs s = true → ∀ f,
      (Dispatches s q 1 f →
        let k := kernelOfBlock (argBlock f.raw) (.queue q f.pos)
        let u := dispatched s q f .unit
        ((if k.urgent then 8 ≤ s.helm.uq.length else 64 ≤ s.helm.nq.length) → exec (.kernel q) s = .next s) ∧
        (k.urgent = false → s.helm.nq.length < 64 →
          exec (.kernel q) s = .next { u with helm := { u.helm with nq := u.helm.nq ++ [k] } }) ∧
        (k.urgent = true → s.helm.uq.length < 8 →
          exec (.kernel q) s = .next { u with helm := { u.helm with uq := u.helm.uq ++ [k] } })) ∧
      (∀ c ∈ [(3, Instr.planeLoad q, true), (4, Instr.planeStore q, false)], Dispatches s q c.1 f →
        let u := dispatched s q f .unit
        (32 ≤ s.ldr.queue.length → exec c.2.1 s = .next s) ∧
        (s.ldr.queue.length < 32 → checkTransfer s (Xfer.of (argBlock f.raw)) c.2.2 = 0 → exec c.2.1 s = .next { u with
          ldr := { u.ldr with queue := u.ldr.queue ++ [⟨argBlock f.raw, c.2.2, .queue q f.pos⟩] } }) ∧
        (s.ldr.queue.length < 32 → checkTransfer s (Xfer.of (argBlock f.raw)) c.2.2 ≠ 0 →
          ∃ t, exec c.2.1 s = .next t ∧ t.ldr = s.ldr ∧ TransferReported u t ⟨argBlock f.raw, c.2.2, .queue q f.pos⟩
            (BitVec.ofNat 4 (checkTransfer s (Xfer.of (argBlock f.raw)) c.2.2)))) ∧
      (Dispatches s q 5 f →
        let w : Switch := ⟨BitVec.ofNat 4 (rawField f.raw 16 1), BitVec.ofNat 48 (rawField f.raw 24 6), f.raw.getLsbD 132,
          some (q, f.pos), s.now⟩
        (slotOf s w.slot.toNat = none →
          exec (.timetableBind q) s = .next (complete (dispatched s q f .bind) q.toNat f.pos 0x0B 0 0)) ∧
        (slotOf s w.slot.toNat ≠ none → (∀ o, s.ttb.pend = some o → o.bind = none) →
          exec (.timetableBind q) s = .next { dispatched s q f .bind with ttb := { s.ttb with pend := some w } })) ∧
      (Dispatches s q 7 f →
        (32 ≤ s.que.mail.length → exec (.mailbox q) s = .next s) ∧
        (s.que.mail.length < 32 →
          let u := dispatched s q f .mailbox
          exec (.mailbox q) s = .next { u with que := { u.que with mail := s.que.mail ++ [⟨f.raw, q, false, f.pos⟩] } })) ∧
      (Dispatches s q 6 f →
        let scope := rawField f.raw 4 1
        let cond := rawField f.raw 5 1
        let w : Work := .fence (fenceWaits s q.toNat scope) (BitVec.ofNat 8 cond) (BitVec.ofNat 48 (rawField f.raw 16 6))
        ((3 ≤ scope ∨ 3 ≤ cond) → exec (.fence q) s = .next (finished s q f 2 0)) ∧
        (scope < 3 → cond < 3 → p.disp = [] →
          fenceCond s (BitVec.ofNat 8 cond) (BitVec.ofNat 48 (rawField f.raw 16 6)) = false →
          exec (.fence q) s = .next (dispatched s q f w)))) ∧
    (∀ d l waits cond sail, p.disp = d :: l → d.work = .fence waits cond sail →
      (waits.all (fun w => !(stillThere s w)) = true ∧ fenceCond s cond sail = true →
        exec (.fenceComplete q) s = .next (complete s q.toNat d.pos 0 0 0)) ∧
      (waits.any (stillThere s) = true ∨ fenceCond s cond sail = false → exec (.fenceComplete q) s = .next s)) ∧
    (∀ wr v m l, writerMay s wr Reg.queMbDone = true → s.que.mail = m :: l → m.remote = false →
      exec (.queMbDone wr v) s = .next (complete { s with que := { s.que with mail := l } } m.id.toNat m.pos
        (if bits v 7 0 = 0 ∨ 0x80 ≤ bits v 7 0 then bits v 7 0 else 0x80) 0 (reg s Reg.queMbRes)))

/-- R271, R280, R283, R284, R421: a MOVE that passes its checks copies its bytes between any two of its spaces and
waits for its completion; one whose read meets DATAERR or fails at the host ends with that status, and what it read
is written, poisoned toward the host where it was damaged; one that fails a check completes with that check's status
and moves nothing. That the accesses are made as the descriptor is dispatched, its status waiting for MOVE_COMPLETE,
is inferred (log entry 105). -/
def Obligations.MoveCopiesItsBytes : Prop :=
  ∀ (s : State) (q : BitVec 16) (f : Fetched) (resp : HostRead) (hits : List Nat), Dispatches s q 2 f → runs s = true →
    let p := pairOf s q.toNat
    let n := rawField f.raw 4 4
    let src := Space.of (rawField f.raw 8 1)
    let dst := Space.of (rawField f.raw 9 1)
    let sa := rawField f.raw 16 8
    let da := rawField f.raw 24 8
    let bad := moveRefusal p src dst sa da n
    let waits (t : State) (st : BitVec 8) : Prop := pairOf t q.toNat = pairOf (dispatched s q f (.move st)) q.toNat
    let stored (t : State) (b : Space) (bs : List Byte) : Prop := ∀ x, memByte t x =
      if b.addr da ≤ x ∧ x < b.addr da + bs.length then bs.getD (x - b.addr da) 0 else memByte s x
    ((bad ≠ 0 ∨ n = 0) → exec (.move q resp hits) s = .next (finished s q f bad 0)) ∧
    (∀ bs b, bad = 0 → n ≠ 0 → src = some .host → dst = some b → b ≠ .host → s.que.d3 = false → resp = .data bs →
      bs.length = n →
      let u := readHost s p sa n resp
      (nocWrite u 11 (b.addr da) bs hits).2 = .ok →
      ∃ t, exec (.move q resp hits) s = .next t ∧ waits t 0 ∧ stored t b bs ∧ t.out = u.out) ∧
    (∀ e bs b, bad = 0 → n ≠ 0 → src = some .host → dst = some b → b ≠ .host → s.que.d3 = false → resp = .fail e bs →
      let u := readHost s p sa n resp
      (bs = [] ∨ (nocWrite u 11 (b.addr da) (bs.take n) hits).2 = .ok) →
      ∃ t, exec (.move q resp hits) s = .next t ∧ waits t 8 ∧ stored t b (bs.take n) ∧ t.out = u.out) ∧
    (∀ u bs, bad = 0 → n ≠ 0 → src ≠ some .host → dst = some .host → s.que.d3 = false →
      (∀ sp, src = some sp → nocRead s 11 (sp.addr sa) n = (u, .ok, bs)) →
      ∃ t, exec (.move q resp hits) s = .next t ∧ waits t 0 ∧ t.mem.bytes = u.mem.bytes ∧
        t.out = (writeHost u p da bs false).out) ∧
    (∀ u bs a, bad = 0 → n ≠ 0 → src = some a → a ≠ .host → dst = some .host → s.que.d3 = false →
      nocRead s 11 (a.addr sa) n = (u, .dataerr, bs) → bs ≠ [] →
      ∃ t, exec (.move q resp hits) s = .next t ∧ waits t 9 ∧ t.out = (writeHost u p da bs true).out) ∧
    (∀ u bs a b, bad = 0 → n ≠ 0 → src = some a → dst = some b → a ≠ .host → b ≠ .host →
      nocRead s 11 (a.addr sa) n = (u, .ok, bs) → bs.length = n →
      (nocWrite (if a = b then usedFree u else u) 11 (b.addr da) (if a = b then overlapped u sa da n bs else bs) hits).2 = .ok →
      ∃ t, exec (.move q resp hits) s = .next t ∧ waits t 0 ∧
        (∀ i < n, (a = b → ¬ (sa ≤ da + i ∧ da + i < sa + n)) → memByte t (b.addr (da + i)) = bs.getD i 0) ∧
        (∀ x, (x < b.addr da ∨ b.addr da + n ≤ x) → memByte t x = memByte s x)) ∧
    (∀ u v bs a b, bad = 0 → n ≠ 0 → src = some a → dst = some b → a ≠ .host → b ≠ .host → a ≠ b →
      nocRead s 11 (a.addr sa) n = (u, .ok, bs) → bs ≠ [] → nocWrite u 11 (b.addr da) bs hits = (v, .ok) →
      exec (.move q resp hits) s = .next (dispatched v q f (.move 0)))

/-- R291, R296 to R300, R302, R305, R597: each admin command has its effect and its completion's result; a drained
pair is freed; a pair signals at its moderation time; SET_IRQ acts as its completion is written; pair 0 is set up by
QUE_ADM_COMMIT; an event goes to the admin CQ. -/
def Obligations.AdminCommandsAndEventsComplete : Prop :=
  ∀ (s : State),
    (∀ f, Dispatches s 0 9 f →
      let acmd := rawField f.raw 4 1
      let qp := rawField f.raw 16 2
      let p := pairOf s qp
      (acmd = 1 → rawField f.raw 16 8 + 4096 ≤ 2 ^ 64 → s.que.d3 = false →
        exec .identify s = .next (finished (writeHost s (pairOf s 0) (rawField f.raw 16 8) (identityPage s) false) 0 f 0 0)) ∧
      (acmd = 1 → 2 ^ 64 < rawField f.raw 16 8 + 4096 → exec .identify s = .next (finished s 0 f 4 0)) ∧
      (acmd = 2 →
        let want := rawField f.raw 42 2
        let bad := createRefusal s want (newPair s.que.posBase f.raw)
        (bad ≠ 0 → exec .createQp s = .next (finished s 0 f bad 0)) ∧
        (bad = 0 → want ≠ 0 →
          exec .createQp s = .next (finished (setPair s want (newPair s.que.posBase f.raw)) 0 f 0 (BitVec.ofNat 32 want))) ∧
        (∀ q, bad = 0 → want = 0 → lowestFree s = some q →
          exec .createQp s = .next (finished (setPair s q (newPair s.que.posBase f.raw)) 0 f 0 (BitVec.ofNat 32 q)))) ∧
      (acmd = 3 →
        ((qp = 0 ∨ p.ctype = 3 ∨ p.st = .free) → exec .deleteQp s = .next (finished s 0 f 0x14 0)) ∧
        (qp ≠ 0 → p.ctype ≠ 3 → p.st = .draining → exec .deleteQp s = .next (dispatched s 0 f (.deletePair (BitVec.ofNat 16 qp)))) ∧
        (qp ≠ 0 → p.ctype.toNat < 2 → (p.st = .active ∨ p.st = .error) → s.que.d3 = false →
          (∀ x ∈ p.fetched, ∀ d ∈ p.disp, d.pos ≠ x.pos) → ∃ t, exec .deleteQp s = .next t ∧
          (pairOf t qp).st = .draining ∧ (pairOf t qp).fetched = [] ∧ (pairOf t qp).disp = p.disp ∧
          pairOf t 0 = pairOf (dispatched s 0 f (.deletePair (BitVec.ofNat 16 qp))) 0)) ∧
      (acmd = 4 →
        ((qp = 0 ∨ p.ctype = 3 ∨ p.st = .free ∨ p.st = .draining) → exec .setIrq s = .next (finished s 0 f 0x14 0)) ∧
        (qp ≠ 0 → p.ctype ≠ 3 → (p.st = .active ∨ p.st = .error) → (∀ d ∈ (pairOf s 0).disp, d.pos ≠ f.pos) →
          ∃ t, exec .setIrq s = .next t ∧
            (p.open_ = true → s.que.d3 = false → pairOf t qp = { p with
              vector := BitVec.ofNat 11 (rawField f.raw 18 2), noirq := f.raw.getLsbD 159, modcnt := rawField f.raw 20 2
              modtime := rawField f.raw 22 2, unsig := 0, unsigAt := 0 }) ∧
            ((p.open_ = false ∨ (s.que.d3 = true ∧ (pairOf s 0).ctype.toNat < 2)) → pairOf t qp = p))) ∧
      (acmd = 5 → runs s = true →
        let ty := rawField f.raw 16 1
        let id := rawField f.raw 20 4
        (ty ≠ 1 → ty ≠ 2 → exec .clientLost s = .next (finished s 0 f 2 0)) ∧
        ((ty = 1 ∨ ty = 2) → ∃ t, exec .clientLost s = .next t ∧ ∀ k, k ≠ 0 →
          ((pairOf s k).st = .active ∨ (pairOf s k).st = .error) →
          (pairOf s k).ctype.toNat = ty → (pairOf s k).client = BitVec.ofNat 20 (if ty = 1 then id else id % 65536) →
          (pairOf t k).st = .draining ∧ (pairOf t k).fetched = [])) ∧
      (acmd = 5 → runs s = false → exec .clientLost s = .next (finished s 0 f 6 0)) ∧
      (acmd = 6 → exec .qpState s = .next (finished s 0 f 0 (qpInfo0 p))) ∧
      (acmd = 0 ∨ 7 ≤ acmd → exec (.badop 0) s = .next (finished s 0 f (if runs s then 1 else 6) 0))) ∧
    (∀ q : BitVec 16, q ≠ 0 → (pairOf s q.toNat).st = .draining → (pairOf s q.toNat).disp = [] →
      (pairOf s 0).disp.all (fun d => decide (d.work ≠ .deletePair q)) = true →
      let v := setPair s q.toNat Pair.none
      let u := { v with que := { v.que with posBase := max v.que.posBase (pairOf s q.toNat).taken } }
      exec (.pairDrainEnd q) s = .next (if (pairOf s q.toNat).tell then postEvent u 3 q.toNat else u)) ∧
    (∀ q : BitVec 16, (pairOf s q.toNat).modtime ≠ 0 → (pairOf s q.toNat).unsig ≠ 0 →
      (pairOf s q.toNat).unsigAt + (pairOf s q.toNat).modtime * 1000 ≤ s.now →
      ∃ t, exec (.modtimeExpiry q) s = .next t ∧ pairOf t q.toNat = { pairOf s q.toNat with unsig := 0, unsigAt := 0 } ∧
        (s.wdn.held = false → (pairOf s q.toNat).noirq = false → s.que.funcMask = false → s.que.d3 = false →
          let e := msixOf s (pairOf s q.toNat).vector.toNat
          (e.masked = false → t.out = s.out ++ [Out.msix e.addr e.data]) ∧
          (e.masked = true → t.out = s.out ∧ (msixOf t (pairOf s q.toNat).vector.toNat).pending = true))) ∧
    (∀ wr, writerMay s wr Reg.queAdmCommit = true →
      (admRefusal s ≠ 0 → exec (.queAdmCommit wr) s = .next (setReg s Reg.queAdmCstat (BitVec.ofNat 32 (admRefusal s)))) ∧
      (admRefusal s = 0 → ∃ t, exec (.queAdmCommit wr) s = .next t ∧
        let p := pairOf t 0
        p.st = .active ∧ p.ctype = 0 ∧ p.phase = true ∧ p.sqHead = 0 ∧ p.sqTail = 0 ∧ p.cqHead = 0 ∧ p.cqTail = 0 ∧
        p.sqSize = bits (reg s Reg.queAdmSize) 12 0 ∧ p.cqSize = bits (reg s Reg.queAdmSize) 28 16 ∧
        p.sqBase.toNat = reg2 s Reg.queAdmSqbLo Reg.queAdmSqbHi ∧
          p.cqBase.toNat = reg2 s Reg.queAdmCqbLo Reg.queAdmCqbHi ∧
        ∀ n, n ≠ 0 → pairOf t n = pairOf s n)) ∧
    (∀ code subj l, s.que.events = (code, subj) :: l → (pairOf s 0).st = .active → (pairOf s 0).cqSize ≠ 0 →
      cqRoom (pairOf s 0) = true → s.wdn.held = false → s.que.d3 = false → getFlag s Reg.queCtl 1 = true →
      (pairOf s 0).ctype.toNat < 2 →
      ∃ t, exec .asyncEventPost s = .next t ∧ t.que.events = l ∧ CqWritten s t 0
        (completionEntry s.ttb.sail 0xFFFF (pairOf s 0).sqHead 0x16 0 s.ttb.pass false (pairOf s 0).phase
          (BitVec.ofNat 32 (code.toNat * 2 ^ 24 + subj.toNat))))

/-- R3, R4, R24, R25: a write changes each field as its access type says and no other bit; a reserved encoding leaves
its field and is recorded in GLB_ERR; clearing RSVD clears SRC and OFFSET; nothing outside the registers changes but
the count of the writer's request on the network. What user logic may write, and the code it leaves in SRC, is the model's
choice (log entry 31). -/
def Obligations.RegisterWriteChangesItsFields : Prop :=
  ∀ (s : State) (wr : Writer) (off : Nat) (v : Word), PlainReg off → WriteLands s wr off →
    ∃ t, exec (.registerWrite wr (BitVec.ofNat 26 off) v) s = .next t ∧
      (off ≠ Reg.glbErr →
        (∀ f ∈ fieldsFor wr off, ∀ i, f.lo ≤ i → i ≤ f.hi → (reg t off).getLsbD i = fieldBit f v (reg s off) i) ∧
        (∀ i, (fieldsFor wr off).all (fun f => decide (i < f.lo ∨ f.hi < i)) = true →
          (reg t off).getLsbD i = (reg s off).getLsbD i) ∧
        (reg t Reg.glbErr = if placesReserved wr off v then glbErrAfter (reg s Reg.glbErr) wr off else reg s Reg.glbErr)) ∧
      (off = Reg.glbErr → reg t off =
        (if v.getLsbD 31 then reg s off &&& 0x40000000 else reg s off) &&& ~~~(v &&& 0x40000000)) ∧
      (∀ o, o ≠ off → o ≠ Reg.glbErr → reg t o = reg s o) ∧
      t.mem = (requestAt s wr off).mem ∧ t.mem.bytes = s.mem.bytes ∧ t.arr = s.arr ∧ t.helm = s.helm ∧
      t.que = s.que ∧ t.plt = s.plt ∧ t.out = s.out ∧ t.ttb = s.ttb ∧ t.ldr = s.ldr ∧ t.fry = s.fry ∧ t.fab = s.fab ∧
      t.flt = s.flt ∧ t.wdn = s.wdn ∧ t.dbg = s.dbg ∧ t.mode = s.mode ∧ t.now = s.now ∧ t.hx1 = s.hx1

/-- R3, R245, R372, R423, R566: a read answers what the register shows and clears its RC fields, unless it comes over
the debug path; a read of the low half of TTB_SAIL or NOC_STBYTE captures the high half; a read of TTB_REC0 or
LDR_LAST ends its request. -/
def Obligations.RegisterReadHasItsEffect : Prop :=
  ∀ (s : State) (wr : Writer) (off : Nat), off % 4 = 0 → off < 0x4000000 → ReadLands s wr off →
    let u := requestAt s wr off
    (off ∉ [Reg.ttbSailLo, Reg.nocStbyteLo, Reg.ttbRec, Reg.ldrLast, Reg.pwrVin, Reg.ttbSailHi, Reg.nocStbyteHi] →
      ∃ t, exec (.rcFieldRead wr (BitVec.ofNat 26 off)) s = .next t ∧ t.reply = [(regValue u off).toNat] ∧
        (wr ≠ .debug → ∀ f ∈ regFields off, ∀ i, f.lo ≤ i → i ≤ f.hi → (reg t off).getLsbD i =
          ((reg s off).getLsbD i && decide (f.acc ≠ .rc))) ∧
        (wr = .debug → t.regs = s.regs) ∧ (∀ o, o ≠ off → reg t o = reg s o) ∧ t.plt = s.plt ∧ t.arr = s.arr) ∧
    (off = Reg.ttbSailLo → ∃ t, exec (.ttbSailLoRead wr) s = .next t ∧ t.reply = [s.ttb.sail.toNat % 2 ^ 32] ∧
      (wr ≠ .debug → reg t Reg.ttbSailHi = BitVec.ofNat 32 (s.ttb.sail.toNat / 2 ^ 32)) ∧
      (wr = .debug → t.regs = s.regs ∧ storeGet 0 t.dbg.quiet Reg.ttbSailHi = BitVec.ofNat 32 (s.ttb.sail.toNat / 2 ^ 32))) ∧
    (off = Reg.nocStbyteLo →
      let n := (storeGet NiStat.none u.mem.stats (bits (reg s Reg.nocStsel) 5 0)).bytes
      ∃ t, exec (.nocStbyteLoRead wr) s = .next t ∧ t.reply = [n % 2 ^ 32] ∧
        (wr ≠ .debug → reg t Reg.nocStbyteHi = BitVec.ofNat 32 (n / 2 ^ 32)) ∧ (wr = .debug → t.regs = s.regs)) ∧
    (off = Reg.ttbRec → ∃ t, exec (.ttbRec0Read wr) s = .next t ∧ t.reply = [(reg s Reg.ttbRec).toNat] ∧
      t.plt.recReq = (s.plt.recReq && decide (wr = .debug)) ∧ t.regs = s.regs) ∧
    (off = Reg.ldrLast → ∃ t, exec (.ldrLastRead wr) s = .next t ∧ t.reply = [(reg s Reg.ldrLast).toNat] ∧
      t.plt.ldrReq = (s.plt.ldrReq && decide (wr = .debug)) ∧ t.regs = s.regs)

/-- R268 to R271: a request to BAR0 or BAR2 of another size than 4 bytes sets BADACC and is discarded, or answered
with nothing, as an Unsupported Request; a BAR4 read delivers the bytes of its DRAM window, with the poison flag where
a word is uncorrectable, and a BAR4 write stores its bytes; a request beyond module DRAM is aborted. Which AER record each
refusal leaves is presumed from the PCIe specification (log entry 175). -/
def Obligations.BarAccessesReachMemory : Prop :=
  ∀ (s : State), s.hx1 = true →
    exec (.barBadSizeAccess true) s = .next (setReg s Reg.queErr (setBit (reg s Reg.queErr) 0 true)) ∧
    exec (.barBadSizeAccess false) s = .next { setReg s Reg.queErr (setBit (reg s Reg.queErr) 0 true) with
      que := { s.que with aerUnsupported := true }, reply := [] } ∧
    (∀ w off len data, off < bar4Size s →
      let a := bar4Base s + off
      let n := if w = true then data.length else len
      0 < n →
      (dramSize < a + n → ∃ t, exec (.bar4Access w off len data) s = .next t ∧ t.reply = [] ∧ t.que.aerAbort = true ∧
        t.mem = s.mem) ∧
      (a + n ≤ dramSize → w = false → (nocGate s 11 a).2 = .ok →
        ∃ t, exec (.bar4Access w off len data) s = .next t ∧ t.mem.bytes = s.mem.bytes ∧
          t.reply.drop 1 = (List.range n).map (fun i => (memByte s (a + i)).toNat) ∧
          (s.mem.damage = [] → t.reply.head? = some 0)) ∧
      (a + n ≤ dramSize → w = true → s.wdn.held = false → (nocGate s 11 a).2 = .ok → s.mem.damage = [] →
        ∃ t, exec (.bar4Access w off len data) s = .next t ∧ t.reply = s.reply ∧
          ∀ b, memByte t b = if a ≤ b ∧ b < a + n then data.getD (b - a) 0 else memByte s b))

/-- R20, R266, R300, R301, R303, R557: PERST_N, a lost data link and a Function Level Reset drain the host clients'
pairs and reset the host-facing state, leave the NODE and FABRIC pairs, the sailings and the Ferry alone, and end a
BAR0 debug session; D3hot and masked vectors hold back what goes to the host until they end. That PERST_N acts in LOAD as
in RUN is inferred (log entry 94), and what a link's training brings with it is the model's choice (log entry 152). -/
def Obligations.EndpointResetsAndPowerStates : Prop :=
  ∀ (s : State),
    let hostFacing (t : State) : Prop :=
      t.que.msix = [] ∧ t.que.funcMask = false ∧ t.que.d3 = false ∧ t.que.pasidEn = false ∧ t.que.kept = [] ∧
      reg t Reg.queCtl = 2 ∧
      reg t Reg.queAdmSize = 0 ∧ (s.wdn.held = false → (pairOf t 0).st = .free ∧
        ∀ n, n ≠ 0 → (pairOf s n).st ≠ .free →
          ((pairOf s n).ctype.toNat < 2 → (pairOf t n).st = .draining ∧ (pairOf t n).fetched = []) ∧
          (2 ≤ (pairOf s n).ctype.toNat → pairOf t n = pairOf s n)) ∧
      t.que.mail = s.que.mail ∧ t.ttb = s.ttb ∧ t.fry = s.fry ∧ t.wdn = s.wdn ∧ t.arr = s.arr ∧
      ((∀ l, s.dbg.session ≠ some (l, .bar0)) → t.dbg = s.dbg ∧ t.helm = s.helm) ∧
      (∀ l, s.dbg.session = some (l, .bar0) → t.dbg.session = none ∧
        t.helm = { s.helm with dbgReq := false, dbgHalt := false, dbgStep := false })
    (s.hx1 = true →
      (∃ t, exec .perstNAssert s = .next t ∧ hostFacing t ∧ t.que.linkUp = false ∧ t.que.perst = true) ∧
      (s.que.linkUp = true → ∃ t, exec .dlDown s = .next t ∧ hostFacing t ∧ t.que.linkUp = false) ∧
      (∃ t, exec .functionLevelReset s = .next t ∧ hostFacing t ∧ t.que.linkUp = s.que.linkUp) ∧
      (∀ p m (l : LinkConfig), s.que.perst = false →
        let u : State := { s with que := { s.que with linkUp := true, pasidEn := p, funcMask := m, link := l } }
        ((∀ x ∈ s.que.msix, x.2.pending = false ∨ x.2.masked = true) → exec (.dlUp p m l) s = .next u) ∧
        (∀ v e, s.que.msix = [(v, e)] → e.pending = true → e.masked = false → m = false → s.que.d3 = false →
          s.wdn.held = false → exec (.dlUp p m l) s =
            .next { setMsix u v { e with pending := false } with out := s.out ++ [Out.msix e.addr e.data] })) ∧
      exec .d3hotEntry s = .next { s with que := { s.que with d3 := true } } ∧
      (∃ t, exec .d0Return s = .next t ∧ t.que.d3 = false ∧
        (s.que.msix = [] → s.que.kept = [] → t = { s with que := { s.que with d3 := false } }) ∧
        (∀ q d l r sc us v, s.que.msix = [] → s.que.kept = [(q, d.pos)] → (pairOf s q).disp = l ++ d :: r →
          (∀ x ∈ l ++ r, x.pos ≠ d.pos) → d.work = .kept sc us v →
          t = complete { s with que := { s.que with d3 := false, kept := [] } } q d.pos sc.toNat us.toNat v)) ∧
      (∀ v : BitVec 11,
        let e := msixOf s v.toNat
        (e.pending = true → s.que.funcMask = false → s.que.d3 = false → s.wdn.held = false →
          exec (.vectorUnmask v) s = .next { setMsix s v.toNat { e with masked := false, pending := false } with
            out := s.out ++ [Out.msix e.addr e.data] }) ∧
        (e.pending = false → exec (.vectorUnmask v) s = .next (setMsix s v.toNat { e with masked := false })))) ∧
    (s.que.perst = true → s.mode ≠ .standby →
      exec .perstNRise s = .next { s with que := { s.que with perst := false } })

/-! ## Memory and the network -/

/-- R390, R399, R401 to R403: a corrected word that is still owed its write-back gets fresh check bits and keeps its
bytes; the scrubber reads the next block of 64 bytes, reports what it finds and changes no byte; above 85 °C refresh
is derated, until every device is below 80 °C; in LOAD the DRAM interface trains and then opens.

R411, R413: a staged route is committed exactly when its source is an initiator, its destination exists, and, if
it is valid, its codes lead round the ring in one direction from the source's stop to the destination's stop and spur;
else its refusal code is reported and every route stays. -/
def Obligations.BanksDramAndRoutesAreMaintained : Prop :=
  (∀ (s : State), s.hx1 = true →
    (∀ (b : BitVec 2) (w : BitVec 20),
      let n := bankAddr b.toNat (8 * w.toNat) / 8
      (n ∈ s.mem.wb → ∃ t, exec (.bankEccWriteback b w) s = .next t ∧ damageAt t n = none ∧ n ∉ t.mem.wb ∧
        t.mem.bytes = s.mem.bytes ∧ ∀ m, m ≠ n → damageAt t m = damageAt s m) ∧
      (n ∉ s.mem.wb → exec (.bankEccWriteback b w) s = .next s)) ∧
    (∀ w : BitVec 34,
      (w.toNat ∈ s.mem.wb → ∃ t, exec (.dramEccWriteback w) s = .next t ∧ damageAt t w.toNat = none ∧
        w.toNat ∉ t.mem.wb ∧ t.mem.bytes = s.mem.bytes ∧ ∀ m, m ≠ w.toNat → damageAt t m = damageAt s m) ∧
      (w.toNat ∉ s.mem.wb → exec (.dramEccWriteback w) s = .next s)) ∧
    (getFlag s Reg.drcScrub 31 = true → getFlag s Reg.drcStat 1 = true →
      let k := (reg s Reg.drcScrubPos).toNat
      ∃ t, exec .patrolScrub s = .next t ∧ t.mem.bytes = s.mem.bytes ∧
        (reg t Reg.drcScrubPos).toNat = (k + 1) % 2 ^ 31 ∧
        (s.mem.damage = [] → t.flt = s.flt ∧ t.mem.wb = s.mem.wb) ∧
        (s.mem.dirty = [] → 8 * k + 7 < dramSize / 8 → ∀ i < 8, ∀ d, s.mem.damage = [(8 * k + i, d)] →
          t.mem.damage = s.mem.damage ∧
          t.flt.reports = s.flt.reports ++ [⟨if d = .single then 5 else 6, BitVec.ofNat 9 (8 * (8 * k + i) / 256 % 8),
            BitVec.ofNat 32 k⟩] ∧
          (d = .single → 8 * k + i ∈ t.mem.wb) ∧
          (d = .uncorrectable → getFlag s Reg.drcUeaddrHi 31 = false →
            (reg t Reg.drcUeaddrLo).toNat = 8 * (8 * k + i) % 2 ^ 32 ∧ bits (reg t Reg.drcUeaddrHi) 31 30 = 3))) ∧
    (∀ c : BitVec 8, ∃ t, exec (.dramDerate c) s = .next t ∧ reg t Reg.drcTemp = c.zeroExtend 32 ∧
      getFlag t Reg.drcStat 2 = (decide (85 < c.toInt) || (getFlag s Reg.drcStat 2 && decide (80 ≤ c.toInt))) ∧
      t.mem = s.mem) ∧
    (s.mode = .load → getFlag s Reg.drcStat 0 = false →
      ∃ t, exec .dramTrainingDone s = .next t ∧ getFlag t Reg.drcStat 0 = true ∧ t.mem = s.mem) ∧
    (s.mode = .load → getFlag s Reg.drcStat 0 = true → getFlag s Reg.drcStat 1 = false →
      ∃ t, exec .dramInitDone s = .next t ∧ getFlag t Reg.drcStat 1 = true ∧ getFlag t Reg.drcStat 0 = true ∧
        t.mem = s.mem)) ∧
  (∀ (s : State) (wr : Writer), writerMay s wr Reg.nocRtCommit = true →
    let src := bits (reg s Reg.nocRtsel) 13 8
    let dst := bits (reg s Reg.nocRtsel) 5 0
    let w := reg s Reg.nocRtdata
    let good := src < 16 ∧ dst < 16 ∧ niInitiates src = true ∧ (w.getLsbD 31 = true → routeLeads src dst w)
    ∃ t, exec (.nocRtCommit wr) s = .next t ∧
      (good → reg t Reg.nocRtCstat = 0 ∧ routeOf t src dst = w ∧
        ∀ a b, b < 64 → (a, b) ≠ (src, dst) → routeOf t a b = routeOf s a b) ∧
      (¬ good → reg t Reg.nocRtCstat ≠ 0 ∧ t.mem = s.mem))

/-- R299, R417 to R421, R423, R463, R469, R493: an isolated NI stays so; a timeout is counted, reported, and ends its
request, of the queue engine the one that accesses the address; statistics are cleared; domains sleep and wake; user
logic's requests are answered, those to registers too. Which initiators may time out, that a timed-out request counts
in bin 7, and what user logic may do to registers is the model's choice (log entries 85, 88 and 31). -/
def Obligations.NetworkIsolatesTimesOutAndAnswers : Prop :=
  ∀ (s : State),
    (∀ wr v, writerMay s wr Reg.nocIsocmd = true → bits v 5 0 < 16 →
      ∃ t, exec (.nocIsocmd wr v) s = .next t ∧
        ∀ n < 16, isolated t n = (isolated s n || decide (n = bits v 5 0))) ∧
    (∀ wr v, writerMay s wr Reg.nocIsocmd = true → 16 ≤ bits v 5 0 →
      exec (.nocIsocmd wr v) s = .next (setReg s Reg.glbErr (glbErrAfter (reg s Reg.glbErr) wr Reg.nocIsocmd))) ∧
    (∀ wr v, writerMay s wr Reg.nocStclr = true →
      ∃ t, exec (.nocStclr wr v) s = .next t ∧ storeGet NiStat.none t.mem.stats (bits (reg s Reg.nocStsel) 5 0) = NiStat.none ∧
        ∀ n, n ≠ bits (reg s Reg.nocStsel) 5 0 →
          storeGet NiStat.none t.mem.stats n = storeGet NiStat.none s.mem.stats n) ∧
    (s.hx1 = true → ∀ (src tgt : BitVec 4) (addr : Word) (isWrite : Bool), niInitiates src.toNat = true →
      let n0 := storeGet NiStat.none s.mem.stats src.toNat
      ∃ t, exec (.nocTimeout src tgt addr isWrite) s = .next t ∧
        ((src = 8 ∨ src = 5 ∨ src = 10 ∨ src = 13 ∨ src = 14 ∨ (src = 3 ∧ s.ldr.run = none) ∨
            (src = 4 ∧ s.ttb.tload = none)) →
          (reg t Reg.nocTmocnt).toNat = min ((reg s Reg.nocTmocnt).toNat + 1) 0xFFFFFFFF ∧ getFlag t Reg.nocEvt 0 = true ∧
          t.flt.reports = s.flt.reports ++ [⟨9, tgt.zeroExtend 9, src.zeroExtend 32⟩] ∧ t.arr = s.arr ∧
          t.mem.bytes = s.mem.bytes ∧ t.mem.damage = s.mem.damage ∧
          (n0.hist.length = 8 → (storeGet NiStat.none t.mem.stats src.toNat).hist.getD 7 0 = min (n0.hist.getD 7 0 + 1) 0xFFFFFFFF)) ∧
        ((src = 5 ∨ src = 8 ∨ src = 10 ∨ src = 13) → t.fry.late = s.fry.late ++ [src.toNat]) ∧
        (∀ r, src = 3 → s.ldr.run = some r → t.ldr.run = some { r with status := 5 }) ∧
        (src = 4 → t.ttb.tload = none) ∧
        (src = 6 → anyRuns s = true → t.fab.answer = some (.timeout, []) ∧ t.reply = [6]) ∧
        (∀ q, src = 11 → ringAt s addr = some q → (pairOf s q).st = .active → (pairOf t q).st = .error) ∧
        (∀ q d, src = 11 → ringAt s addr = none → moveInFlight s addr isWrite = some (q, d) →
          (∃ x ∈ (pairOf t q).disp, x = { d with work := .move 10 }) ∧ ∀ n, n ≠ q → pairOf t n = pairOf s n) ∧
        (∀ q d, src = 11 → ringAt s addr = none → moveInFlight s addr isWrite = none → linkInFlight s addr = some (q, d) →
          q < 65536 → (isWrite = true → t.que = s.que) ∧
          (isWrite = false → (pairOf s q).ctype ≠ 2 → Finished s t (BitVec.ofNat 16 q) d.pos 10 0 0)) ∧
        (src = 11 → ringAt s addr = none → moveInFlight s addr isWrite = none → linkInFlight s addr = none →
          (isWrite = false → t.que = { s.que with aerAbort := true } ∧ t.reply = []) ∧ (isWrite = true → t.que = s.que)) ∧
        (src = 0 → s.plt.pl ≠ 3 → mayExecute s = true →
          let entry : Prop := t.plt.pl = s.plt.pl + 1 ∧ (savedAt t (s.plt.pl.toNat + 1)).pc = s.plt.pc ∧
            (savedAt t (s.plt.pl.toNat + 1)).val = addr ∧
            (savedAt t (s.plt.pl.toNat + 1)).cause.toNat % 65536 = 5 * 256 + 6
          (s.plt.fq = [] → addr = s.plt.pc → isWrite = false → fetchRefusal s addr.toNat = none →
            pilotPlace addr.toNat ≠ .bank0 → entry) ∧
          (∀ u w, fetchChecked (nocFailure (nocCount s 0 0 true) 0 tgt.toNat .timeout) = (u, some w) →
            addr ∈ nocAddresses u w → u.plt.pl = s.plt.pl → entry))) ∧
    (s.hx1 = true →
      (∀ late : Bool, s.fab.asleep = true → ∃ t, exec (.domainWake 6 late) s = .next t ∧
        t.fab = { s.fab with asleep := false } ∧ getFlag t Reg.nocEvt 2 = (getFlag s Reg.nocEvt 2 || late)) ∧
      (∀ (n : BitVec 2) (late : Bool), (portAt s n).phase = .sleep →
        ∃ t, exec (.domainWake (BitVec.ofNat 4 (portNi n)) late) s = .next t ∧ (portAt t n).phase = .idle ∧
          (∀ m, m ≠ n → portAt t m = portAt s m) ∧ getFlag t Reg.nocEvt 2 = (getFlag s Reg.nocEvt 2 || late)) ∧
      (∀ (n : BitVec 2) (late : Bool), (portAt s n).phase = .disabled →
        ∃ t, exec (.domainWake (BitVec.ofNat 4 (portNi n)) late) s = .next t ∧ getFlag t Reg.nocEvt 1 = true ∧
          t.fry = s.fry) ∧
      (∀ n, ferryActive s = true → (portAt s n).phase = .idle → (portAt s n).since + 1000000 ≤ s.now →
        ∃ t, exec (.ferryDomainSleep n) s = .next t ∧ (portAt t n).phase = .sleep ∧ ∀ m, m ≠ n →
          portAt t m = portAt s m) ∧
      (anyRuns s = false → s.fab.engine = none → (∀ r < 8, (regionOf s r).going = false) →
        exec .fabricDomainSleep s = .next { s with fab := { s.fab with asleep := true } })) ∧
    (∀ off hits, off % 4 = 0 → off < 0x4000000 → ReadLands s .fabric off →
      ∃ t, exec (.fnocRequest (.read (BitVec.ofNat 40 (regAddr off)) 4) hits) s = .next t ∧
        t.reply = 0 :: (bytesOf (regValue (nocBytes (requestAt s .fabric off) 6 4) off).toNat 4).map (·.toNat)) ∧
    (∀ off (v : Word) hits, PlainReg off → WriteLands s .fabric off →
      ∃ t u, exec (.fnocRequest (.write (BitVec.ofNat 40 (regAddr off)) (bytesOf v.toNat 4)) hits) s = .next t ∧
        exec (.registerWrite .fabric (BitVec.ofNat 26 off) v) s = .next u ∧ t.reply = [0] ∧ t.regs = u.regs) ∧
    (anyRuns s = true → s.mem.damage = [] →
      (∀ (a : BitVec 40) n hits, nocKind a.toNat n = true → a.toNat + n ≤ dramSize → (nocGate s 6 a.toNat).2 = .ok →
        ∃ t, exec (.fnocRequest (.read a n) hits) s = .next t ∧ t.mem.bytes = s.mem.bytes ∧
          t.reply = 0 :: (List.range n).map (fun i => (memByte s (a.toNat + i)).toNat)) ∧
      (∀ (a : BitVec 40) bs hits, nocKind a.toNat bs.length = true → a.toNat + bs.length ≤ dramSize →
        (nocGate s 6 a.toNat).2 = .ok →
        ∃ t, exec (.fnocRequest (.write a bs) hits) s = .next t ∧ t.reply = [0] ∧
          ∀ b, memByte t b = if a.toNat ≤ b ∧ b < a.toNat + bs.length then bs.getD (b - a.toNat) 0 else memByte s b) ∧
      (∀ (a : BitVec 40) n, 0 < n → n ≤ 64 → a.toNat + n ≤ bankSize →
        ∃ t, exec (.bank3Request (.read a n)) s = .next t ∧ t.mem.bytes = s.mem.bytes ∧
          t.reply = 0 :: (List.range n).map (fun i => (memByte s (bankAddr 3 a.toNat + i)).toNat)) ∧
      (∀ (a : BitVec 40) bs, 0 < bs.length → bs.length ≤ 64 → a.toNat + bs.length ≤ bankSize →
        ∃ t, exec (.bank3Request (.write a bs)) s = .next t ∧ t.reply = [0] ∧
          ∀ b, memByte t b = if bankAddr 3 a.toNat ≤ b ∧ b < bankAddr 3 a.toNat + bs.length
            then bs.getD (b - bankAddr 3 a.toNat) 0 else memByte s b))

/-! ## The Ferry links -/

/-- R424, R426 to R428, R433, R463, R464, R502: a port trains when it sees signal, and ends UP, MISWIRED or FAILED; it
tries again 1 ms after a failure; loss of signal, or more than 16 uncorrectable codewords within 1 ms, takes it out of
UP; a change into or out of UP raises PORTCHG and is announced on every port; a MISWIRED port carries management
traffic alone; calibration every 100 ms records the latency; the counts of an error interval of 1 ms are reported and
start again; a change of EN or MAXRATE retrains. What a port drops as it trains anew, its credits among it, is the model's
choice (log entry 185). -/
def Obligations.FerryPortsTrain : Prop :=
  ∀ (s : State) (n : BitVec 2), ferryActive s = true →
    let p := portAt s n
    let still (t : State) : Prop := t.arr = s.arr ∧ t.mem = s.mem
    let others (t : State) : Prop := (∀ m, m ≠ n → portAt t m = portAt s m) ∧ still t
    let trains (t : State) : Prop := (portAt t n).phase = .training ∧ (portAt t n).sent = [] ∧
      (portAt t n).waiting = [] ∧ (portAt t n).credits = [0, 0, 0, 0] ∧ (portAt t n).owed = [0, 0, 0, 0] ∧ still t
    let told (ph : PortPhase) : State := announce (setPort s n { p with phase := ph, since := s.now })
    (getFlag s (Reg.fryPctl + 0x20 * n.toNat) 31 = true → p.phase = .idle ∨ p.phase = .sleep →
      ∃ t, exec (.portSignalDetect n) s = .next t ∧ trains t ∧ others t) ∧
    (p.phase = .training →
      (∀ step, ∃ t, exec (.portUp n (.failed step)) s = .next t ∧ (portAt t n).phase = .failed ∧
        (portAt t n).reason = step ∧ (portAt t n).since = s.now ∧ others t ∧ t.out = s.out) ∧
      (∀ rate rev far pair lat inLoad, rate ≠ 3 → bits (reg s (Reg.fryPctl + 0x20 * n.toNat)) 1 0 ≤ rate.toNat →
        ∃ u t, exec (.portUp n (.success rate rev far pair lat inLoad)) s = .next t ∧
          (portAt u n).phase = (if pair then .up else .miswired) ∧ (portAt u n).rate = rate ∧
          (portAt u n).farNode = far ∧ (portAt u n).lat = lat ∧
          (portAt u n).inLoad = (if inLoad then some (s.ttb.sail + s.fry.sailofs) else none) ∧ others u ∧ u.out = s.out ∧
          (pair = true → t = announce u ∧ getFlag t Reg.fryEvt 0 = true) ∧
          (pair = false → t = u ∧ getFlag t Reg.fryEvt 1 = true))) ∧
    (p.phase = .failed → p.since + 1000000 ≤ s.now → ∃ t, exec (.trainingRetry n) s = .next t ∧ trains t ∧ others t) ∧
    (p.phase = .miswired → (∀ m, m.cls ≠ 2 → sendOn s n m = s) ∧
      ∀ f : BitVec 2048, f.toNat % 4 ≠ 2 → crc32c (bytesOf f.toNat 252) = (f >>> 2016).truncate 32 →
        ∃ t, exec (.flitReceive n f true 0) s = .next t ∧ t.fry = s.fry ∧ t.out = s.out) ∧
    (p.phase = .up →
      (∃ t, exec (.portDown n true) s = .next t ∧ t.fry.ports = (told .idle).fry.ports ∧ t.out = (told .idle).out ∧
        getFlag t Reg.fryEvt 0 = true ∧ still t) ∧
      (p.ucOver = true → ∃ t, exec (.portDown n false) s = .next t ∧ trains t ∧ t.out = (told .training).out ∧
        (∀ m, m ≠ n → portAt t m = portAt (told .training) m) ∧ getFlag t Reg.fryEvt 0 = true) ∧
      (p.ucOver = false → exec (.portDown n false) s = .next s) ∧
      (∀ lat, (p.calAt + 100000000 ≤ s.now → ∃ t, exec (.latencyRecalibration n lat) s = .next t ∧
          portAt t n = { p with lat := lat, calAt := s.now } ∧ others t) ∧
        (s.now < p.calAt + 100000000 → exec (.latencyRecalibration n lat) s = .next s))) ∧
    (p.ivAt + 1000000 ≤ s.now → ∃ t, exec (.ferryErrorIntervalEnd n) s = .next t ∧
      portAt t n = { p with ivUc := 0, ivReplay := 0, ivAt := s.now } ∧ others t ∧
      t.flt.reports = s.flt.reports ++
        (if p.ivUc = 0 then [] else [⟨0x07, BitVec.ofNat 9 n.toNat, BitVec.ofNat 32 p.ivUc⟩]) ++
        (if p.ivReplay = 0 then [] else [⟨0x08, BitVec.ofNat 9 n.toNat, BitVec.ofNat 32 p.ivReplay⟩])) ∧
    (s.now < p.ivAt + 1000000 → exec (.ferryErrorIntervalEnd n) s = .next s) ∧
    (∀ wr v, let off := Reg.fryPctl + 0x20 * n.toNat
      writerMay s wr off = true → bits v 7 6 ≠ 3 → bits v 1 0 ≠ 3 →
      ∃ t, exec (.fryPctlWrite wr n v) s = .next t ∧ still t ∧ (p.phase ≠ .up → others t) ∧
        reg t off = (reg s off &&& ~~~0x800000C3) ||| (v &&& 0x800000C3) ∧
        (v.getLsbD 31 = (reg s off).getLsbD 31 → bits v 1 0 = bits (reg s off) 1 0 → t.fry = s.fry) ∧
        (v.getLsbD 31 = false → (reg s off).getLsbD 31 = true → (portAt t n).phase = .disabled) ∧
        (v.getLsbD 31 = true → bits v 1 0 ≠ bits (reg s off) 1 0 → p.phase = .up ∨ p.phase = .training → trains t) ∧
        (v.getLsbD 31 = true → (reg s off).getLsbD 31 = false → p.phase = .disabled → (portAt t n).phase = .idle))

/-- R429 to R431: a message is sent in a flit of its class, with the next sequence number, the acknowledgement of what
has been received and the credits owed, while a credit and the replay buffer of 64 flits let it; else it waits, the
lower class first. A flit of an uncorrectable codeword or with a wrong CRC is discarded and answered with NAK; a good
flit in order is taken and acknowledged, frees the flits that it acknowledges and returns credits; a repeat is
acknowledged again; a gap is answered with NAK; a NAK replays the flits that are not acknowledged, and the eighth
replay retrains. That a message takes one flit, and what answers a repeat and a gap, is inferred (log entry 106); what the
eighth replay drops, and the class, SEQ and payload of an answer, is the model's choice (log entries 185 and 203). -/
def Obligations.FlitsAreTakenInOrder : Prop :=
  ∀ (s : State) (n : BitVec 2) (f : BitVec 2048), ferryActive s = true → (portAt s n).phase = .up →
    let p := portAt s n
    let seq : Byte := (f >>> 8).truncate 8
    let ack : Byte := (f >>> 16).truncate 8
    let left := unacked ack p.sent
    let credited := p.credits.zipIdx.map fun c => c.1 + ((f >>> (32 + 16 * c.2)).truncate 16 : BitVec 16).toNat
    let headed := drainPort (setPort s n { p with sent := left, credits := credited }) n
    let g := portAt headed n
    let good : Prop := crc32c (bytesOf f.toNat 252) = (f >>> 2016).truncate 32
    (∀ m : LinkMsg, p.waiting = [] → p.owed.length = 4 →
      (p.sent.length < 64 → 0 < p.credits.getD m.cls 0 →
        ∃ (x : BitVec 1920) (b : BitVec 2048), let t := sendOn s n m
          t.out = s.out ++ [.flit n b m] ∧ (∀ k, k ≠ n → portAt t k = portAt s k) ∧
          portAt t n = { p with
            sent := p.sent ++ [⟨p.txSeq, m, x, 0⟩], txSeq := p.txSeq + 1, owed := [0, 0, 0, 0]
            credits := p.credits.set m.cls (p.credits.getD m.cls 0 - 1) } ∧
          b.extractLsb' 0 8 = BitVec.ofNat 8 m.cls ∧ b.extractLsb' 8 8 = p.txSeq ∧ b.extractLsb' 16 8 = p.rxSeq ∧
          b.extractLsb' 24 8 = 0 ∧ (∀ i < 4, b.extractLsb' (32 + 16 * i) 16 = BitVec.ofNat 16 (p.owed.getD i 0)) ∧
          b.extractLsb' 96 1920 = x ∧ crc32c (bytesOf b.toNat 252) = (b >>> 2016).truncate 32) ∧
      (64 ≤ p.sent.length ∨ p.credits.getD m.cls 0 = 0 → sendOn s n m = setPort s n { p with waiting := [m] })) ∧
    (∀ m, nextFlit p = some m → m ∈ p.waiting ∧ p.sent.length < 64 ∧ p.credits.getD m.cls 0 ≠ 0 ∧
      ∀ x ∈ p.waiting, p.credits.getD x.cls 0 ≠ 0 → m.cls ≤ x.cls) ∧
    (∀ k, let at_ := p.ucAt.filter (fun x => decide (s.now < x + 1000000)) ++ [s.now]
      ∃ t, exec (.flitReceive n f false k) s = .next t ∧ portAt t n = { p with
          ivUc := p.ivUc + 1, ucAt := at_, ucOver := p.ucOver || decide (16 < at_.length), owed := [0, 0, 0, 0] } ∧
        (∃ b, t.out = s.out ++ [Out.flitAnswer n b] ∧ AnswerFlit b p.rxSeq true p.owed) ∧
        (reg t (Reg.fryPcw + 0x20 * n.toNat)).toNat = min ((reg s (Reg.fryPcw + 0x20 * n.toNat)).toNat + k) 0xFFFFFFFF ∧
        (reg t (Reg.fryPuc + 0x20 * n.toNat)).toNat = min ((reg s (Reg.fryPuc + 0x20 * n.toNat)).toNat + 1) 0xFFFFFFFF) ∧
    (¬ good → ∃ t, exec (.flitReceive n f true 0) s = .next t ∧
      portAt t n = { p with owed := [0, 0, 0, 0] } ∧
      ∃ b, t.out = s.out ++ [Out.flitAnswer n b] ∧ AnswerFlit b p.rxSeq true p.owed) ∧
    (good → f.getLsbD 24 = false →
      ∃ t, exec (.flitReceive n f true 0) s = .next t ∧
        (seq = p.rxSeq + 1 → portAt t n = { g with rxSeq := seq, owed := [0, 0, 0, 0] } ∧
          ∃ b, t.out = headed.out ++ [.flitTaken n (f.truncate 2) ((f >>> 96).truncate 1920), .flitAnswer n b] ∧
            AnswerFlit b seq false (addCredit g.owed (f.toNat % 4))) ∧
        (128 ≤ (seq - p.rxSeq - 1).toNat → portAt t n = { g with owed := [0, 0, 0, 0] } ∧
          ∃ b, t.out = headed.out ++ [Out.flitAnswer n b] ∧ AnswerFlit b p.rxSeq false g.owed) ∧
        (seq ≠ p.rxSeq + 1 → (seq - p.rxSeq - 1).toNat < 128 → portAt t n = { g with owed := [0, 0, 0, 0] } ∧
          ∃ b, t.out = headed.out ++ [Out.flitAnswer n b] ∧ AnswerFlit b p.rxSeq true g.owed)) ∧
    (good → f.getLsbD 24 = true → left ≠ [] → p.waiting = [] →
      ∃ t, exec (.flitReceive n f true 0) s = .next t ∧
        ((∀ x ∈ left, x.replays < 7) → (portAt t n).sent = left.map (fun x => { x with replays := x.replays + 1 }) ∧
          (portAt t n).phase = .up ∧ ∀ (i : Nat) (h : i < left.length), ∃ b : BitVec 2048,
            t.out[s.out.length + i]? = some (.flit n b left[i].msg) ∧ b.extractLsb' 8 8 = left[i].seq) ∧
        ((∃ x ∈ left, 7 ≤ x.replays) → (portAt t n).phase = .training ∧ (portAt t n).sent = []) ∧
        (reg t (Reg.fryPretry + 0x20 * n.toNat)).toNat =
          min ((reg s (Reg.fryPretry + 0x20 * n.toNat)).toNat + left.length) 0xFFFFFFFF)

/-- R432 to R439, R442 to R447, R461: discovery records the modules on their shortest paths and the tree, finds
duplicate IDs and a root conflict, and reports lost nodes; a tick message is forwarded down the tree and orders the tick
at D − L; the root collects reports and sends a verdict; a module records its verdict, and leaves the epoch when it is
excluded or hears none, unless the Warden holds it; a module that is not the root passes on reports and rejoin requests.
The MEPOCH that a tick message predicts, and what DISCOVERY brings, is inferred (log entries 108 and 110); that a held
module keeps its membership is too (log entry 199). -/
def Obligations.EpochsAreFormed : Prop :=
  ∀ (s : State),
    (∀ nodes, ferryActive s = true → ∃ t, exec (.discovery nodes) s = .next t ∧
      let near := heard s nodes
      let known := t.fry.known
      (∀ k ∈ known, k ∈ near) ∧ known.Pairwise (fun a b => sameModule a b = false) ∧
      (∀ h ∈ near, ∃ k ∈ known, sameModule k h = true ∧ (k.hops < h.hops ∨ (k.hops = h.hops ∧ k.port ≤ h.port))) ∧
      t.fry.tree = s.fry.treeNext ∧
      (∀ p, p ∈ t.fry.children ↔ ∃ h ∈ near, h.child = true ∧ h.hops = 1 ∧ h.port = p) ∧
      (∀ n : NodeInfo, n ∈ known → (n.node ∈ t.fry.dups ↔
        (n.node = s.fry.node ∧ n.serial ≠ serialNumber) ∨ ∃ m ∈ known, m.node = n.node ∧ m.serial ≠ n.serial)) ∧
      (t.fry.rootConf = true ↔ s.fry.treeNext.getLsbD 31 = true ∧ ∃ n ∈ known, n.root = true ∧ n.node < s.fry.node) ∧
      (s.fry.treeNext.getLsbD 31 = true → t.fry.upPort = none ∧ t.fry.upDepth = 0) ∧
      (s.fry.treeNext.getLsbD 31 = false → s.fry.treeNext.getLsbD 30 = true →
        t.fry.upPort = if (portAt s (BitVec.ofNat 2 (bits s.fry.treeNext 29 28))).phase = .up
          then some (BitVec.ofNat 2 (bits s.fry.treeNext 29 28)) else none) ∧
      (s.fry.treeNext.getLsbD 31 = false → s.fry.treeNext.getLsbD 30 = false →
        (∀ r ∈ known, r.root = true → (∀ m ∈ known, m.root = true → m ≠ r → r.node < m.node) →
          t.fry.upPort = some r.port) ∧
        ((∀ r ∈ known, r.root = false) → t.fry.upPort = none)) ∧
      (∀ k ∈ s.fry.known, (∀ m ∈ known, m.node ≠ k.node) → getFlag t Reg.fryEvt 2 = true ∧
        ∀ q, q ≠ 0 → (pairOf s q).ctype = 2 → (pairOf s q).client = k.node.zeroExtend 20 → (pairOf s q).st = .active →
          (pairOf t q).st = .draining)) ∧
    (∀ wr v, writerMay s wr Reg.fryNode = true →
      (portsUp s = 0 → bits v 15 0 ≠ 0xFFFF →
        exec (.fryNodeWrite wr v) s = .next { s with fry := { s.fry with node := v.truncate 16 } }) ∧
      (portsUp s ≠ 0 → exec (.fryNodeWrite wr v) s = .next s)) ∧
    (∀ wr, writerMay s wr Reg.fryTreeCommit = true →
      let w := reg s Reg.fryTree
      let en := getFlag s (Reg.fryPctl + 0x20 * bits w 29 28) 31
      (w.getLsbD 30 = true → en = false → exec (.fryTreeCommit wr) s = .next (setReg s Reg.fryTreeCstat 1)) ∧
      (w.getLsbD 30 = false ∨ en = true → exec (.fryTreeCommit wr) s = .next
        (announce { setReg s Reg.fryTreeCstat 0 with fry := { s.fry with treeNext := w } }))) ∧
    (∀ wr v, writerMay s wr Reg.fryMbumpHi = true → ∃ t, exec (.fryMbumpArm wr v) s = .next t ∧ t.fry.armed = true ∧
      bumpTarget t = BitVec.ofNat 48 ((reg s Reg.fryMbumpLo).toNat + bits v 15 0 * 2 ^ 32)) ∧
    (s.hx1 = true → runs s = true → isRoot s = true → s.wdn.held = false → s.ttb.ticked = true → s.fry.tickSent = false →
      let d := bits s.fry.tree 15 0
      let u : State := { s with fry := { s.fry with tickSent := true } }
      (bits s.ttb.src 1 0 = 1 → activePeriod s ≠ 0 → s.ttb.lastTick + activePeriod s * 1000 ≤ s.now + d →
        exec .tickMessageSend s =
          .next (sendAll u (downstreamPorts s) (.tick ⟨s.ttb.sail + 1, nextMepoch s, BitVec.ofNat 16 d, 0⟩))) ∧
      (bits s.ttb.src 1 0 ≠ 1 → exec .tickMessageSend s =
        .next (sendAll u (downstreamPorts s) (.tick ⟨s.ttb.sail, s.fry.mepoch, BitVec.ofNat 16 d, 0⟩)))) ∧
    (∀ n m, ferryActive s = true → runs s = true → (portAt s n).phase = .up → s.fry.upPort = some n → s.fry.deep = false →
      tickSrc s = 2 → s.wdn.held = false →
      let l := m.lat + (portAt s n).lat.toNat
      ∃ t, exec (.tickMessageReceive n m) s = .next t ∧
        t.out = (sendAll s (downstreamPorts s) (.tick { m with lat := l })).out ∧
        (l ≤ 8 * m.delay.toNat → t.fry.due = some (s.now + (m.delay.toNat - l / 8), m) ∧ t.fry.tickLate = false) ∧
        (8 * m.delay.toNat < l → t.fry.due = some (s.now, m) ∧ t.fry.tickLate = true ∧ getFlag t Reg.fryEvt 8 = true)) ∧
    (∀ node sail, (∀ at_, isRoot s = true → s.fry.collect = some (sail, at_) → s.hx1 = true →
        s.fry.reports.count node < (s.fry.known.map (·.node)).count node →
        exec (.tickReport node sail) s = .next { s with fry := { s.fry with reports := s.fry.reports ++ [node] } }) ∧
      (∀ p, isRoot s = false → s.fry.upPort = some p → ferryActive s = true →
        exec (.tickReport node sail) s = .next (sendOn s p (.tickReport node sail)))) ∧
    (∀ sail at_, s.fry.collect = some (sail, at_) → s.hx1 = true → s.wdn.held = false →
      let ids := s.fry.known.map (·.node)
      let count := 1 + s.fry.reports.length
      ((∀ x ∈ ids, ids.count x ≤ s.fry.reports.count x) ∨ at_ + bits (reg s Reg.fryEpoch) 7 0 * 1000 ≤ s.now) →
      ∃ (t : State) (m : VerdictMsg), exec .verdictSend s = .next t ∧
        t.out = (sendAll s (downstreamPorts s) (.verdict m)).out ∧ t.fry.collect = none ∧ m.sail = sail ∧
        m.members = BitVec.ofNat 17 count ∧ m.excluded.length ≤ 120 ∧ m.excluded.Pairwise (fun a b => a ≤ b) ∧
        (∀ x ∈ m.excluded, m.excluded.count x ≤ ids.count x - s.fry.reports.count x) ∧
        (m.many = false → ∀ x, m.excluded.count x = ids.count x - s.fry.reports.count x) ∧
        (bits (reg s Reg.fryEpoch) 31 15 ≠ 0 → m.partialSail = decide (count < bits (reg s Reg.fryEpoch) 31 15))) ∧
    (∀ m : VerdictMsg, ferryActive s = true → isRoot s = false → s.fry.upPort.isSome = true →
      ∃ t, exec (.verdict m) s = .next t ∧ t.fry.verdict = some (m.sail, m.excluded) ∧
        t.out = (sendAll s (downstreamPorts s) (.verdict m)).out ∧
        bits (reg t Reg.fryEprec) 16 0 = m.members.toNat ∧ bits (reg t Reg.fryEprec) 28 17 = m.sail.toNat % 4096 ∧
        getFlag t Reg.fryEprec 31 = m.partialSail ∧
        (∀ v r, s.fry.verdict = some v → r ∈ s.helm.red → r.inst.isSome = true → r.sail = v.1 → v ∈ t.fry.past) ∧
        (s.wdn.held = false → m.partialSail = true → m.sail = s.ttb.sail + s.fry.sailofs → t.ttb.flags.getLsbD 7 = true) ∧
        (s.wdn.held = false → s.fry.node ∈ m.excluded → m.sail = s.ttb.sail + s.fry.sailofs → t.fry.out = true ∧
          (s.fry.out = false → getFlag t Reg.fryEvt 5 = true) ∧ ∀ r ∈ t.helm.red, r.inst = none)) ∧
    (∀ a, s.fry.awaiting = some a → a + (bits (reg s Reg.fryEpoch) 7 0 + 5) * 1000 ≤ s.now →
      (s.wdn.held = true → exec .verdictTimeout s = .next s) ∧
      (s.wdn.held = false → ∃ t, exec .verdictTimeout s = .next t ∧ t.fry.out = true ∧ t.fry.awaiting = none ∧
        ∀ r ∈ t.helm.red, r.inst = none)) ∧
    (∀ n, (s.hx1 = true → runs s = true → isRoot s = true → s.wdn.held = false → exec (.rejoinRequest n) s =
        .next (sendToward s n (.rejoinAnswer n (s.ttb.sail + s.fry.sailofs + 2) s.fry.mepoch))) ∧
      (isRoot s = false → ferryActive s = true → ∀ r ∈ s.fry.known, r.root = true →
        (∀ m ∈ s.fry.known, m.root = true → m ≠ r → r.node < m.node) →
        exec (.rejoinRequest n) s = .next (sendOn s r.port (.rejoinAsk n)))) ∧
    (∀ (dest : RejoinTo) m,
      (dest.node = s.fry.node → s.hx1 = true → runs s = true → isRoot s = false →
        exec (.rejoinAnswer dest m) s = .next { s with fry := { s.fry with rejoin := some (dest.target, m) } }) ∧
      (dest.node ≠ s.fry.node → ferryActive s = true →
        exec (.rejoinAnswer dest m) s = .next (sendToward s dest.node (.rejoinAnswer dest.node dest.target m))))

/-- R449, R456, R458: an arriving halo plane is written and made fresh, kept for the next sailing, or discarded as late,
as its sailing and sequence say; a contribution goes on along its sender's tree, and one of each member is kept for a
reduction; a reduction whose contributions do not come in time ends without them and the sailing is PARTIAL, but in a held
module, whose sailing is frozen. Which contributions are kept, and how many of a shared node ID, is inferred (log entries
45 and 186). -/
def Obligations.HalosAndContributionsArrive : Prop :=
  ∀ (s : State), s.hx1 = true → runs s = true →
    (∀ side (slot : BitVec 6) (sail : Sail) seq v, s.wdn.held = false → (portAt s (sideIndex side)).phase = .up →
      let key := 64 * (sideIndex side).toNat + slot.toNat
      let here := s.ttb.sail + s.fry.sailofs
      let e := storeGet 0 s.fry.waits key
      ∃ t, exec (.haloArrival side slot sail seq v) s = .next t ∧
        (sail = here → e ≤ seq → haloSlot t side slot.toNat = v ∧ key ∈ t.fry.fresh ∧
          getField t Reg.fryHalocnt 15 8 = min (getField s Reg.fryHalocnt 15 8 + if e < seq then 1 else 0) 255) ∧
        (sail = here → seq < e → t.fry = s.fry ∧
          getField t Reg.fryHalocnt 23 16 = min (getField s Reg.fryHalocnt 23 16 + 1) 255) ∧
        (sail = here + 1 → haloSlot t side slot.toNat = v ∧ key ∈ t.fry.early ∧ t.fry.fresh = s.fry.fresh) ∧
        (2 ^ 47 ≤ (sail - here).toNat → t.fry = s.fry ∧
          getField t Reg.fryHalocnt 23 16 = min (getField s Reg.fryHalocnt 23 16 + 1) 255) ∧
        (∀ d k, k < 64 → (d, k) ≠ (side, slot.toNat) → haloSlot t d k = haloSlot s d k)) ∧
    (∀ node (sail : Sail) k census v,
      let u := sendAll s (onwardPorts s node) (.contribution node sail k census v)
      let here := s.ttb.sail + s.fry.sailofs
      let wanted : Prop := (∃ r ∈ s.helm.red, r.inst = some k ∧ r.sail = sail) ∨ (sail = here ∧ s.fry.reds ≤ k) ∨
        sail = here + 1
      let had := (s.fry.contrib.filter fun x => decide (x.node = node) && decide (x.sail = sail) && decide (x.k = k)).length
      let modules := max 1 ((s.fry.known.map (·.node)).count node)
      (wanted → had < modules → exec (.combineContribution node sail k census v) s =
        .next { u with fry := { u.fry with contrib := s.fry.contrib ++ [⟨node, sail, k, census, v⟩] } }) ∧
      (¬ wanted ∨ modules ≤ had → exec (.combineContribution node sail k census v) s = .next u)) ∧
    (∀ l r l' k, s.helm.red = l ++ r :: l' → r.inst = some k →
      let late (x : Reduction) (j : Nat) : Prop :=
        x.since + bits (reg s Reg.fryTmo) 15 8 * 1000 ≤ s.now ∧ allContributed s x.sail j = false
      (∀ x ∈ l, x.slot.isSome ≠ r.slot.isSome ∧ (r.slot = none → x.inst = none) ∧
        ∀ j, x.inst = some j → ¬ late x j) → late r k →
      (s.wdn.held = true → exec .combineTimeout s = .next s) ∧ (s.wdn.held = false →
      ∃ t, exec .combineTimeout s = .next t ∧ t.helm.red = l ++ l' ∧ getFlag t Reg.fryEvt 4 = true ∧
        t.ttb.flags.getLsbD 7 = true ∧
        ∀ c, s.helm.run = some c → t.helm.run = some (withReduction c r (installationValue s r k))))

/-- R288, R434, R459, R460: a packet is performed here, goes on toward its destination, or is refused with NODEUNREACH;
a remote write stores its bytes and its last packet is acknowledged; a message enters the mailbox queue; a doorbell
acts on its NODE pair; an acknowledgement, or its absence, completes the LINK_SEND, and so does a refusal by a module on
the way. -/
def Obligations.PacketsAreDelivered : Prop :=
  ∀ (s : State), ferryActive s = true → portsUp s ≠ 0 →
    (∀ src dst, (src ∈ s.fry.dups ∨ dst ∈ s.fry.dups ∨ (dst ≠ s.fry.node ∧ portToward s dst = none)) →
      ∀ port n last a bs m q h v st, ∀ c ∈ [(Instr.pktWrite ⟨src, port⟩ dst n last a bs, n),
        (Instr.pktMailbox src dst n m bs, n),
        (Instr.pktNotice src dst q, 0), (Instr.pktDoorbell src dst q h v, 0), (Instr.pktAck src dst n st, n)],
      exec c.1 s = .next (sendToward s src (.packetAck s.fry.node src c.2 0x0D))) ∧
    (∀ src dst, src ∉ s.fry.dups → dst ∉ s.fry.dups → dst ≠ s.fry.node → (portToward s dst).isSome = true →
      (∀ port n last a bs, exec (.pktWrite ⟨src, port⟩ dst n last a bs) s =
        .next (sendToward s dst (.packet src dst n last none a bs))) ∧
      (∀ n m bs, exec (.pktMailbox src dst n m bs) s = .next (sendToward s dst (.packet src dst n true (some m) 0 bs))) ∧
      (∀ q, exec (.pktNotice src dst q) s = .next (sendToward s dst (.notice src dst q))) ∧
      (∀ q h v, exec (.pktDoorbell src dst q h v) s = .next (sendToward s dst (.doorbell src dst q h v))) ∧
      (∀ n st, exec (.pktAck src dst n st) s = .next (sendToward s dst (.packetAck src dst n st)))) ∧
    (∀ src, src ∉ s.fry.dups → s.fry.node ∉ s.fry.dups →
      (∀ port n last (a : BitVec 64) bs, 0 < bs.length → a.toNat + bs.length ≤ dramSize → s.mem.damage = [] →
        (nocGate s (portNi port) a.toNat).2 = .ok → storeGet 0 s.fry.rxStatus src.toNat = 0 → portNi port ∉ s.fry.late →
        ∃ u t, exec (.pktWrite ⟨src, port⟩ s.fry.node n last a bs) s = .next t ∧
          (∀ b, memByte t b = if a.toNat ≤ b ∧ b < a.toNat + bs.length then bs.getD (b - a.toNat) 0 else memByte s b) ∧
          u.out = s.out ∧ u.fry.ports = s.fry.ports ∧ u.fry.known = s.fry.known ∧
          t = if last then sendToward u src (.packetAck s.fry.node src n 0) else u) ∧
      (∀ n m bs, s.que.mail.length < 32 → ∃ (u t : State) (x : MailMsg),
        exec (.pktMailbox src s.fry.node n m bs) s = .next t ∧
        t.que.mail = s.que.mail ++ [x] ∧ x.remote = true ∧ x.id = src ∧ x.raw.extractLsb' 32 32 = m ∧
        x.raw.toNat / 2 ^ 128 = numOf (bs.take 48) ∧
        u.out = s.out ∧ u.fry = s.fry ∧ t = sendToward u src (.packetAck s.fry.node src n 0)) ∧
      (∀ n m bs, 32 ≤ s.que.mail.length → exec (.pktMailbox src s.fry.node n m bs) s = .next s) ∧
      (∀ q, exec (.pktNotice src s.fry.node q) s = .next s) ∧
      (∀ q h v, let p := pairOf s q.toNat
        (p.st = .active ∨ p.st = .error) → p.open_ = true → p.ctype = 2 → p.client.toNat = src.toNat →
        (h = false → bits v 15 0 < p.sqSize →
          exec (.pktDoorbell src s.fry.node q h v) s = .next (setPair s q.toNat { p with sqTail := bits v 15 0 })) ∧
        (h = true → bits v 15 0 < p.cqSize → ringUsed p.cqHead (bits v 15 0) p.cqSize ≤ ringUsed p.cqHead p.cqTail p.cqSize →
          exec (.pktDoorbell src s.fry.node q h v) s = .next (setPair s q.toNat { p with cqHead := bits v 15 0 }))) ∧
      (∀ n st l rest, s.fry.links = l :: rest → l.seq = n → (l.node = src ∨ st = 0x0D) →
        (∀ x ∈ rest, x.qp ≠ l.qp ∨ x.pos ≠ l.pos) →
        let u := { s with fry := { s.fry with links := rest } }
        (st ≠ 0 → exec (.pktAck src s.fry.node n st) s = .next (complete u l.qp.toNat l.pos st.toNat 0 0)) ∧
        (st = 0 → l.last = false → exec (.pktAck src s.fry.node n st) s = .next s) ∧
        (st = 0 → l.last = true →
          exec (.pktAck src s.fry.node n st) s = .next (complete u l.qp.toNat l.pos (linkStatus s l.qp l.pos) 0 0)))) ∧
    (∀ l rest, s.fry.links = l :: rest → l.last = true → l.sentAt + bits (reg s Reg.fryTmo) 31 16 * 1000 ≤ s.now →
      (∀ x ∈ rest, x.qp ≠ l.qp ∨ x.pos ≠ l.pos) →
      exec (.linkSendTimeout l.seq) s =
        .next (complete { s with fry := { s.fry with links := rest } } l.qp.toNat l.pos 0x0D 0 0)) ∧
    (∀ q f resp, Dispatches s q 8 f → runs s = true → ∀ sp, Space.of (rawField f.raw 7 1) = some sp →
      let node := BitVec.ofNat 16 (rawField f.raw 4 2)
      let mode := rawField f.raw 6 1
      let len := rawField f.raw 8 4
      let bad := linkRefusal s (pairOf s q.toNat) mode len (rawField f.raw 4 2) (rawField f.raw 16 8) (some sp)
      ((bad ≠ 0 ∨ len = 0) → exec (.linkSend q resp) s = .next (finished s q f bad 0)) ∧
      (∀ bs, bad = 0 → len ≠ 0 → sp = .host → s.que.d3 = false → resp = .data bs → bs.length = len →
        let u := readHost s (pairOf s q.toNat) (rawField f.raw 16 8) len resp
        ∃ t, exec (.linkSend q resp) s = .next t ∧
          (mode = 1 →
            let v := sendToward u node (.packet s.fry.node node s.fry.linkSeq true
              (some (BitVec.ofNat 32 (rawField f.raw 24 8))) 0 (bs ++ List.replicate (48 - len) 0))
            t.out = v.out ∧ t.fry.ports = v.fry.ports ∧ t.fry.linkSeq = s.fry.linkSeq + 1) ∧
          (mode = 0 →
            let packets := (len + 223) / 224
            let v := (List.range packets).foldl (fun v k => sendToward v node (.packet s.fry.node node (s.fry.linkSeq + k)
              (decide (k + 1 = packets)) none (BitVec.ofNat 64 (rawField f.raw 24 8 + 224 * k))
              ((bs.drop (224 * k)).take 224))) u
            t.out = v.out ∧ t.fry.ports = v.fry.ports ∧ t.fry.linkSeq = s.fry.linkSeq + packets)))

/-! ## The fabric -/

/-- R486 to R490: the configuration engine takes the frames of its source, discards a bad one, and makes a region
LOADING and then READY; a GO is checked, reads the configuration back, and starts the region with the initial values
of its flip-flops and its newly loaded RAM blocks; a STOP stops it and drains its pairs; a CLEAR discards its frames.
That the first three checks are made at the write, and the first two again with the others after the readback, is log
116 (DEDUCED); that a region whose readback ended while an engine wrote it stays RUNNING is log 117. -/
def Obligations.FabricRegionsLoadAndRun : Prop :=
  ∀ (s : State) (wr : Writer) (r : BitVec 3),
    let n := r.toNat
    let x := regionOf s n
    let others (t : State) : Prop := (∀ q, q ≠ n → regionOf t q = regionOf s q) ∧ t.mem = s.mem ∧ t.arr = s.arr
    (writerMay s wr Reg.fabCfgCommit = true →
      let ctl := reg s Reg.fabCfgCtl
      let target := bits ctl 29 27
      let a := (reg s Reg.fabCfgSrcLo).toNat + (reg s Reg.fabCfgSrcHi).toNat * 2 ^ 32
      let b3 := decide (bits ctl 31 30 = 1)
      let space := if b3 then 0x800000 else 0x2000000000
      let refused (code : Nat) : Prop := exec (.fabCfgCommit wr) s = .next (setField s Reg.fabCfgCstat 3 0 code)
      let free := s.fab.engine = none ∧ (regionOf s target).phase ≠ .running
      (s.fab.engine ≠ none → refused 1) ∧
      (s.fab.engine = none → (regionOf s target).phase = .running → refused 2) ∧
      (free → space < a + 1024 * bits ctl 8 0 → refused 3) ∧
      (free → a ≤ space → bits ctl 8 0 = 0 → exec (.fabCfgCommit wr) s = .next (setReg s Reg.fabCfgCstat 0)) ∧
      (free → a + 1024 * bits ctl 8 0 ≤ space → 0 < bits ctl 8 0 → exec (.fabCfgCommit wr) s =
        .next { setReg s Reg.fabCfgCstat 0 with fab := { s.fab with
          asleep := false, engine := some { bank3 := b3, addr := a, region := target, left := bits ctl 8 0 } } })) ∧
    (exec .configFrame { s with fab := { s.fab with engine := none } } =
      .next { s with fab := { s.fab with engine := none } }) ∧
    (∀ e, s.fab.engine = some e → e.region = n →
      let home := homeRead s 3 e.addr 1024
      let net := nocRead s 6 e.addr 1024
      let clean := if e.bank3 = true then home.2.1 = false else net.2.1 = .ok
      let bs := if e.bank3 = true then home.2.2 else net.2.2
      let i := numOf ((bs.drop 2).take 2)
      let good := clean ∧ numOf (bs.take 1) = n ∧ numOf ((bs.drop 1).take 1) = 1 ∧ i ≤ 455 ∧
        numOf ((bs.drop 1020).take 4) = (crc32c (bs.take 1020)).toNat
      ∃ t, exec .configFrame s = .next t ∧
        t.fab.engine = (if e.left ≤ 1 then none else some { e with addr := e.addr + 1024, left := e.left - 1 }) ∧
        (∀ q, q ≠ n → regionOf t q = regionOf s q) ∧
        (¬ good → regionOf t n = x ∧ getFlag t Reg.fabEvt 0 = true ∧
          getField t Reg.fabCfgCstat 15 8 = min (getField s Reg.fabCfgCstat 15 8 + 1) 255) ∧
        (good → (x.frames.map (·.1)).Pairwise (· < ·) →
          (∀ j p, (j, p) ∈ (regionOf t n).frames ↔
            (j = i ∧ p = BitVec.ofNat 8128 (numOf ((bs.drop 4).take 1016))) ∨ (j ≠ i ∧ (j, p) ∈ x.frames)) ∧
          (regionOf t n).phase = (if x.phase = .running then .running
            else if (regionOf t n).frames.length = 456 then .ready else .loading) ∧
          getField t Reg.fabCfgCstat 31 16 = min (getField s Reg.fabCfgCstat 31 16 + 1) 65535)) ∧
    (writerMay s wr Reg.fabRcmd = true →
      let mine := ∃ e, s.fab.engine = some e ∧ e.region = n
      let refused (code : Nat) : Prop := ∃ t, exec (.regionGo wr r) s = .next t ∧ t.fab = s.fab ∧
        getField t Reg.fabRcmdCstat 3 0 = code ∧ getFlag t Reg.fabEvt 1 = true ∧ others t
      (x.phase ≠ .ready → refused 1) ∧
      (x.phase = .ready → mine → refused 2) ∧
      (x.phase = .ready → ¬ mine → runs s = false → s.mode ≠ .load → refused 3) ∧
      (x.phase = .ready → ¬ mine → runs s = true ∨ s.mode = .load → ∃ t, exec (.regionGo wr r) s = .next t ∧
        regionOf t n = { x with going := true, goAt := s.now } ∧ getField t Reg.fabRcmdCstat 3 0 = 0 ∧ others t) ∧
      (x.phase ≠ .running → ∃ t, exec (.regionStop wr r) s = .next t ∧ t.fab = s.fab ∧
        getField t Reg.fabRcmdCstat 3 0 = 0 ∧ others t) ∧
      (x.phase = .running → ∃ t, exec (.regionStop wr r) s = .next t ∧
        regionOf t n = { x with phase := .ready, pinsOn := false } ∧ getField t Reg.fabRcmdCstat 3 0 = 0 ∧ others t ∧
        ∀ b ∈ regionBlocks n, (blockQ t b).pair = none ∧
          ∀ q, (blockQ s b).pair = some q → (pairOf s q.toNat).st ≠ .free → (pairOf t q.toNat).st = .draining) ∧
      (x.phase = .running → exec (.regionClear wr r) s = .next (setField s Reg.fabRcmdCstat 3 0 1)) ∧
      (x.phase ≠ .running → ∃ t, exec (.regionClear wr r) s = .next t ∧
        regionOf t n = { x with phase := .empty, frames := [], newRam := [] } ∧
        getField t Reg.fabRcmdCstat 3 0 = 0 ∧ others t)) ∧
    (x.going = false ∨ s.now < x.goAt + 29000 → exec (.goCrcDone r) s = .next s) ∧
    (x.going = true → x.goAt + 29000 ≤ s.now →
      let mine := ∃ e, s.fab.engine = some e ∧ e.region = n
      let crc := crc32c (x.frames.flatMap fun f => bytesOf f.2.toNat 1016)
      let isFree (q : Nat) : Prop := bit (storeGet 0 s.fab.rclk q) 31 = true
      let conflict := ∃ q, q < 8 ∧ q ≠ n ∧
        (isFree q ∨ (isFree n ∧ ((regionOf s q).phase = .ready ∨ (regionOf s q).phase = .running)))
      let lvds := getFlag s (Reg.fabIobank + 4 * (n / 2)) 0 = true ∧ Config.padLvds (padFrames x) (n / 2) = true
      let refused (code : Nat) : Prop := ∃ t, exec (.goCrcDone r) s = .next t ∧ regionOf t n = { x with going := false } ∧
        getField t Reg.fabRcmdCstat 3 0 = code ∧ getFlag t Reg.fabEvt 1 = true ∧ t.que = s.que ∧ others t
      let idle := x.phase = .ready ∧ ¬ mine
      let crcOk := idle ∧ crc = reg s (Reg.fabRexp + 4 * n)
      (x.phase ≠ .ready → refused 1) ∧
      (x.phase = .ready → mine → refused 2) ∧
      (idle → ¬ crcOk → refused 4) ∧
      (crcOk → conflict → refused 5) ∧
      (crcOk → ¬ conflict → lvds → refused 6) ∧
      (crcOk → ¬ conflict → ¬ lvds → freePairs s < (sqBlocks s n).length → refused 7) ∧
      (crcOk → ¬ conflict → ¬ lvds → (sqBlocks s n).length ≤ freePairs s → ∃ t, exec (.goCrcDone r) s = .next t ∧
        regionOf t n = { x with
          phase := .running, going := false, newRam := [], runAt := s.now, sail := s.fab.sail, tick := false
          tickIn := none, ffs := (regionOf t n).ffs } ∧
        (∀ i < 16384, (regionOf t n).ffs.getLsbD i = (cellAt s n (i / 128) (i % 128)).init) ∧
        (∀ b ∈ regionBlocks n, ramOf t b = if x.newRam.any (Config.ramFrame (b % 16)) = true
          then BitVec.ofNat 36864 (Config.ramInit (ramFrames x) (b % 16)) else ramOf s b) ∧
        reg t (Reg.fabRcrc + 4 * n) = crc ∧ others t ∧
        (∀ b ∈ regionBlocks n, b ∉ sqBlocks s n → blockQ t b = QBlock.none) ∧
        (∀ b q, sqBlocks s n = [b] → lowestFree s = some q →
          blockQ t b = { QBlock.none with pair := some (BitVec.ofNat 16 q) } ∧
          let p := pairOf t q
          p.st = .active ∧ p.ctype = 3 ∧ p.client.toNat = b ∧ p.sqSize = 64 ∧ p.cqSize = 256 ∧ p.noirq = true ∧
          p.phase = true ∧ p.prio.toNat = bits (storeGet 0 s.fab.qcfg b) 25 24))) ∧
    (x.phase = .running → x.runAt + 1000 ≤ s.now →
      ∃ t, exec (.pinRelease r) s = .next t ∧ regionOf t n = { x with pinsOn := true } ∧ others t) ∧
    (s.now < x.runAt + 1000 → exec (.pinRelease r) s = .next s)

/-- R466, R481 to R485, R491: clock settings, I/O banks and camera ports are committed under their checks; a changed
tree of a RUNNING region goes on with its old output until that falls, and one whose old output gives no edge for 1
µs is switched by force; a camera port follows its lanes; user logic raises its interrupt events; as time passes the
flip-flops of a RUNNING region take their set, reset or data, and a signal of a region that is not RUNNING reads 0 in
another. A step on an empty queue is 1 ns (log 2, the model's choice); the phases of the clocks and the contents of
the configuration's cells are open (logs 118 and 119). -/
def Obligations.FabricClocksAndPortsAreSet : Prop :=
  ∀ (s : State) (wr : Writer) (v : Word),
    (writerMay s wr Reg.fabRclkCommit = true →
      let r := v.toNat % 8
      let new := reg s (Reg.fabRclk + 4 * r)
      let old := storeGet 0 s.fab.rclk r
      let run := (regionOf s r).phase = .running
      let live (q : Nat) : Prop := (regionOf s q).phase = .ready ∨ (regionOf s q).phase = .running
      let freeAfter (q : Nat) : Prop := if q = r then bit new 31 = true else bit (storeGet 0 s.fab.rclk q) 31 = true
      let clash := ∃ q p, q < 8 ∧ p < 8 ∧ p ≠ q ∧ freeAfter q ∧ live p
      let refused (code : Nat) : Prop := exec (.fabRclkCommit wr v) s = .next (setField s Reg.fabRclkCstat 3 0 code)
      (run → bit new 31 ≠ bit old 31 → refused 2) ∧
      (¬ run ∨ bit new 31 = bit old 31 → clash → refused 1) ∧
      (¬ run ∨ bit new 31 = bit old 31 → ¬ clash → ∃ t, exec (.fabRclkCommit wr v) s = .next t ∧
        getField t Reg.fabRclkCstat 3 0 = 0 ∧ t.fab.regions = s.fab.regions ∧
        (run → ∀ k < 4, treeOf old k ≠ treeOf new k → (∀ p ∈ s.fab.switching, p.region = r → p.tree ≠ k) →
          { region := r, tree := k, old := treeOf old k, held := none, since := s.now } ∈ t.fab.switching) ∧
        ∀ q, storeGet 0 t.fab.rclk q = if q = r then new else storeGet 0 s.fab.rclk q)) ∧
    (∀ (r : BitVec 3) (k : BitVec 2),
      let due (p : TreeSwitch) : Prop := p.region = r.toNat ∧ p.tree = k.toNat ∧ p.held = none ∧ p.since + 1000 ≤ s.now
      let off := treeOf (storeGet 0 s.fab.rclk r.toNat) k.toNat / 8 = 0
      ((∃ p ∈ s.fab.switching, due p) → ∃ t, exec (.treeSwitchForced r k) s = .next t ∧ getFlag t Reg.fabEvt 2 = true ∧
        ∀ p, p ∈ t.fab.switching ↔ (p ∈ s.fab.switching ∧ ¬ due p) ∨
          (¬ off ∧ ∃ q ∈ s.fab.switching, due q ∧ p = { q with held := some 0, since := s.now })) ∧
      ((∀ p ∈ s.fab.switching, ¬ due p) → exec (.treeSwitchForced r k) s = .next s)) ∧
    (∀ b : BitVec 2, let off := Reg.fabIobank + 4 * b.toNat
      writerMay s wr off = true →
      (regionRuns s (2 * b.toNat) = true ∨ regionRuns s (2 * b.toNat + 1) = true →
        exec (.fabIobankWrite wr b v) s = .next s) ∧
      (regionRuns s (2 * b.toNat) = false → regionRuns s (2 * b.toNat + 1) = false →
        exec (.fabIobankWrite wr b v) s = .next (setReg s off (if v.getLsbD 0 then 1 else 0)))) ∧
    (writerMay s wr Reg.fabCamCommit = true →
      let n : BitVec 2 := v.truncate 2
      let w := reg s (Reg.fabCam + 4 * n.toNat)
      let lane (k : Nat) := bits w (2 * k + 1) (2 * k)
      let clash := ∃ j k, j < k ∧ k ≤ bits w 29 28 ∧ lane j = lane k
      (clash → exec (.fabCamCommit wr v) s = .next (setField s Reg.fabCamCstat 3 0 1)) ∧
      (¬ clash → ∃ t, exec (.fabCamCommit wr v) s = .next t ∧ getField t Reg.fabCamCstat 3 0 = 0 ∧
        camAt t n = { conf := w, phase := if w.getLsbD 31 = true ∧ bits w 27 26 ≠ 3 then .lp else .off, deskewed := false } ∧
        (∀ m, m ≠ n → camAt t m = camAt s m) ∧
        getField t (Reg.fabCamstat + 4 * n.toNat) 15 0 = min (getField s (Reg.fabCamstat + 4 * n.toNat) 15 0 +
          (if (camAt s n).phase = .hs then 1 else 0)) 65535)) ∧
    (∀ n : BitVec 2, s.hx1 = true →
      let c := camAt s n
      let goes (b : CamBurst) (c' : CamPort) : Prop := ∃ t, exec (.cameraBurst n b) s = .next t ∧ camAt t n = c' ∧
        t.regs = s.regs ∧ ∀ m, m ≠ n → camAt t m = camAt s m
      (c.phase = .lp → goes .start { c with phase := .hs } ∧ goes .skewCal { c with deskewed := true } ∧
        goes .ulpsEnter { c with phase := .ulps } ∧
        ∃ t, exec (.cameraBurst n .startBadSync) s = .next t ∧ t.fab = s.fab ∧ getFlag t Reg.fabEvt 6 = true ∧
          getField t (Reg.fabCamstat + 4 * n.toNat) 15 0 = min (getField s (Reg.fabCamstat + 4 * n.toNat) 15 0 + 1) 65535) ∧
      (c.phase = .hs → goes .stop { c with phase := .lp } ∧ goes .skewCal { c with deskewed := true }) ∧
      (c.phase = .ulps → goes .ulpsExit { c with phase := .lp })) ∧
    (∀ k : BitVec 3, (∃ q, q < 8 ∧ (regionOf s q).phase = .running) →
      exec (.uirq k) s = .next (setFlag s Reg.fabEvt (8 + k.toNat))) ∧
    (s.pending = [] → ∃ t, step s = .next t ∧ ∀ r < 8, (regionOf s r).phase = .running → ∀ i < 16384,
      let u : State := { s with now := s.now + 1, plt := t.plt }
      let c := cellAt s r (i / 128) (i % 128)
      let sets := netOr u r false c.setReset
      let edge := cellEdge u r i c
      (regionOf t r).ffs.getLsbD i =
        if sets = true ∧ (c.async = true ∨ edge = true) then c.isSet
        else if edge = true ∧ netOr u r true c.enable = true then netOf u r (c.data r (i / 128) (i % 128))
        else (regionOf s r).ffs.getLsbD i) ∧
    (∀ r q col row wide, q ≠ r → (regionOf s q).phase ≠ .running →
      ∀ x ∈ [Config.Net.stored q col row, .table q col row, .carry q col, .mux q col row wide], netOf s r x = false)

/-- R470, R473, R474, R476, R477, R483, R495: a block's queue takes and gives its words in order while the clock of
that side runs, flags a push while full and a pop while empty, and reports bad parity; eight words in an SQ block are
a descriptor, the two words of a completion free its entry; a commit sets a block's mode under its checks. -/
def Obligations.FabricQueuesKeepOrder : Prop :=
  ∀ (s : State) (n : BitVec 7),
    let k := n.toNat
    let b := blockQ s k
    let cfg := storeGet 0 s.fab.qcfg k
    let mode := bits cfg 31 29
    let stat := Reg.fabQstat + 0x20 * k
    let run := (regionOf s (k / 16)).phase = .running
    let pushes := run ∧ blockClocked s k false = true
    let pops := run ∧ blockClocked s k true = true
    let cut (w : BitVec 72) : BitVec 72 := BitVec.ofNat 72 (w.toNat % 2 ^ wordWidth cfg)
    let others (t : State) : Prop := (∀ m, m ≠ k → blockQ t m = blockQ s m) ∧ t.mem = s.mem ∧
      t.fab.regions = s.fab.regions
    let popped (t : State) (w : BitVec 72) : Prop := t.out = s.out ++ [Out.popped k w] ∧ t.reply = [w.toNat]
    (¬ pushes → ∀ w ok, exec (.queuePush n w ok) s = .next s) ∧
    (¬ pops → ∀ w ok, exec (.queuePop n w ok) s = .next s) ∧
    (pushes → mode = 1 ∨ mode = 2 → ∀ w ok,
      (b.words.length < blockDepth cfg → exec (.queuePush n w ok) s =
        .next (setBlock s k { b with words := b.words ++ [(cut w, ok)] })) ∧
      (blockDepth cfg ≤ b.words.length → ∃ t, exec (.queuePush n w ok) s = .next t ∧ t.fab = s.fab ∧
        getFlag t stat 5 = true ∧ getFlag t Reg.fabEvt 3 = true)) ∧
    (pops → mode = 1 ∨ mode = 3 →
      (b.words = [] → ∃ t, exec (.queuePop n none true) s = .next t ∧ t.fab = s.fab ∧ popped t 0 ∧
        getFlag t stat 6 = true ∧ getFlag t Reg.fabEvt 4 = true) ∧
      (∀ w l, b.words = (w, true) :: l → ∃ t, exec (.queuePop n none true) s = .next t ∧
        blockQ t k = { b with words := l } ∧ popped t w ∧ others t ∧ t.regs = s.regs)) ∧
    (pops → pushes → mode = 1 → ∀ w,
      (b.words = [] → 0 < blockDepth cfg → ∃ t, exec (.queuePop n (some w) true) s = .next t ∧
        blockQ t k = { b with words := [(cut w, true)] } ∧ popped t 0 ∧ getFlag t stat 6 = true ∧ others t) ∧
      (∀ v ok l, b.words = (v, ok) :: l → b.words.length ≤ blockDepth cfg →
        ∃ t, exec (.queuePop n (some w) true) s = .next t ∧
          blockQ t k = { b with words := l ++ [(cut w, true)] } ∧ popped t v ∧ others t)) ∧
    (pops → mode = 3 ∨ mode = 5 → ∀ w ok l, b.words = (w, ok) :: l → ∃ t, exec (.queuePop n none false) s = .next t ∧
      popped t w ∧ getFlag t stat 7 = true ∧ getFlag t Reg.fabEvt 5 = true ∧ (blockQ t k).words = l ∧
      t.flt.reports = s.flt.reports ++ [⟨0x0E, BitVec.ofNat 9 k, 0⟩]) ∧
    (∀ wr v, writerMay s wr (Reg.fabQpop + 0x20 * k) = true → mode = 2 → ∀ w l, b.words = (w, true) :: l →
      exec (.fabQpop wr n v) s = .next (setBlock s k { b with words := l })) ∧
    (∀ wr v, writerMay s wr (Reg.fabQpush + 0x20 * k) = true → mode = 3 → b.words.length < blockDepth cfg →
      exec (.fabQpush wr n v) s = .next (setBlock s k { b with words := b.words ++ [(v.zeroExtend 72, true)] })) ∧
    (∀ q, pushes → mode = 4 → b.pair = some q →
      let p := pairOf s q.toNat
      let used := ringUsed p.sqHead p.sqTail 64
      ∀ w ok,
      (b.skip = 0 → b.partialDesc = [] → 63 ≤ used → ∃ t, exec (.queuePush n w ok) s = .next t ∧
        blockQ t k = { b with skip := 7 } ∧ getFlag t stat 5 = true ∧ t.que = s.que) ∧
      (b.skip ≠ 0 → exec (.queuePush n w ok) s = .next (setBlock s k { b with skip := b.skip - 1 })) ∧
      (b.skip = 0 → b.partialDesc.length < 7 → b.partialDesc ≠ [] ∨ used < 63 → exec (.queuePush n w ok) s =
        .next (setBlock s k { b with partialDesc := b.partialDesc ++ [(cut w, ok)] })) ∧
      (b.skip = 0 → b.partialDesc.length = 7 → exec (.queuePush n w ok) s = .next
        (setPair (setBlock s k { b with partialDesc := [], words := b.words ++ b.partialDesc ++ [(cut w, ok)] })
          q.toNat { p with sqTail := (p.sqTail + 1) % 64 }))) ∧
    (pops → mode = 5 → ∀ w l, b.words = (w, true) :: l →
      (b.halfPop = false → ∃ t, exec (.queuePop n none true) s = .next t ∧ popped t w ∧ t.que = s.que ∧
        blockQ t k = { b with words := l, halfPop := true }) ∧
      (b.halfPop = true → ∀ q rest, b.owners = q :: rest → ∃ t, exec (.queuePop n none true) s = .next t ∧ popped t w ∧
        blockQ t k = { b with words := l, halfPop := false, owners := rest } ∧
        ((pairOf s q).ctype = 3 → (pairOf s q).cqSize ≠ 0 →
          pairOf t q = { pairOf s q with cqHead := ((pairOf s q).cqHead + 1) % (pairOf s q).cqSize }))) ∧
    (∀ wr (v : Word), writerMay s wr Reg.fabQcommit = true → v.toNat % 128 = k →
      let w := reg s (Reg.fabQcfg + 0x20 * k)
      let cq := bits w 22 16
      let sq := bits w 31 29 = 4
      let badCq := cq = k ∨ cq / 16 ≠ k / 16 ∨ bits (storeGet 0 s.fab.qcfg cq) 31 29 ≠ 5
      let refused (code : Nat) : Prop := exec (.fabQcommit wr v) s = .next (setField s Reg.fabQcstat 3 0 code)
      (run → refused 1) ∧
      (¬ run → sq → bit w 15 = true → refused 3) ∧
      (¬ run → sq → bit w 15 = false → badCq → refused 2) ∧
      (¬ run → ¬ sq ∨ (bit w 15 = false ∧ ¬ badCq) → ∃ t, exec (.fabQcommit wr v) s = .next t ∧
        getField t Reg.fabQcstat 3 0 = 0 ∧ t.fab.blocks = s.fab.blocks ∧
        (∀ j, storeGet 0 t.fab.qcfg j = if j = k then w else storeGet 0 s.fab.qcfg j) ∧
        ∀ j, storeGet 0 t.fab.qthr j = if j = k then reg s (Reg.fabQthr + 0x20 * k) else storeGet 0 s.fab.qthr j))

/-! ## Faults and repair -/

/-- R497 to R500, R503, R504, R523: an event of an enabled source is counted against its instance under the current
sailing and judged lasting or transient; a lasting one is logged, isolates its NI or orders a tile repair, as its
source's ACT says, and one of a tile already ordered in the running repair is logged; a transient one is logged with
LOGT; one of a source that is not enabled does nothing; the log is popped at its head. -/
def Obligations.FaultEventsAreJudged : Prop :=
  ∀ (s : State) (src : BitVec 8) (inst : BitVec 9) (detail : Word), s.hx1 = true →
    let r : FltReport := ⟨src, inst, detail⟩
    let cfg := storeGet 0 s.flt.src src.toNat
    let judged := src.toNat ≤ 0x0F ∨ src.toNat = 0x13
    let cur : Sail := if s.mode = .load then 0 else s.ttb.sail
    let h := histOf s src.toNat inst.toNat
    let recent := (cur :: h.recent).take 15
    let w := bits cfg 10 0
    let n := bits cfg 26 23
    let lasting := w = 0 ∨ (n ≤ recent.length ∧ ∀ x ∈ recent.take n, (cur - x).toNat < w)
    let act := bits cfg 28 27
    let row := inst.toNat / 17
    let col := inst.toNat % 17
    let out := rowLost s row = true ∨ rowByp s row = col
    let entry (kind : BitVec 4) : LogEntry := ⟨kind, src, inst, detail, cur⟩
    let enabled := judged ∧ bit cfg 31 = true
    let logged (t : State) (kind : BitVec 4) : Prop :=
      if s.flt.log.length < 64 then t.flt.log = s.flt.log ++ [entry kind] else t.flt.log = s.flt.log
    let quiet (t : State) : Prop := t.flt.repair = s.flt.repair ∧ (s.flt.log.length < 64 → t.regs = s.regs)
    (¬ enabled → exec (.faultEvent src inst detail) s =
      .next { s with flt := { s.flt with reports := s.flt.reports.erase r } }) ∧
    (enabled → ∃ t, exec (.faultEvent src inst detail) s = .next t ∧
      (∀ b i, b < 256 → i < 512 → histOf t b i = if b = src.toNat ∧ i = inst.toNat
        then { recent := recent, total := min (h.total + 1) 0xFFFF, lasting := h.lasting || decide lasting }
        else histOf s b i) ∧
      t.mode = s.mode ∧
      (¬ lasting → if bit cfg 30 then logged t 0 else t.flt.log = s.flt.log) ∧
      (¬ lasting → src = 1 → bit cfg 29 = true → s.ttb.ckDone = true → getFlag s Reg.ldrCkptStat 31 = true →
        s.ttb.sentFor ≠ some s.ttb.passSail → runs s = true → s.wdn.held = false → row < 16 → ¬ out →
          s.flt.repair = none →
        ∃ p, t.flt.repair = some p ∧ p.step = .stopping ∧ p.kind = .full ∧ p.orders = [{ tile := none, ev := r }]) ∧
      (lasting → act = 0 → logged t 1 ∧ quiet t) ∧
      (lasting → act = 2 → inst.toNat < 16 → getFlag s Reg.fltIsomask inst.toNat = true →
        logged t 7 ∧ getFlag t Reg.nocIsoLo inst.toNat = true) ∧
      (lasting → act = 2 → 16 ≤ inst.toNat ∨ getFlag s Reg.fltIsomask inst.toNat = false →
        logged t 1 ∧ quiet t) ∧
      (lasting → act = 1 → row < 16 → out ∨ s.wdn.held = true → logged t 1 ∧ quiet t) ∧
      (lasting → act = 1 → row < 16 → ¬ out → s.wdn.held = false → col = 16 → rowByp s row = 0x1F →
        logged t 1 ∧ t.flt.repair = s.flt.repair ∧ rowByp t row = 16 ∧ t.flt.recordDue = true) ∧
      (lasting → act = 1 → row < 16 → ¬ out → s.wdn.held = false → col ≠ 16 ∨ rowByp s row ≠ 0x1F →
        s.flt.repair = none → ∃ p, t.flt.repair = some p ∧ p.step = .stopping ∧ p.later = [] ∧
          p.orders = [{ tile := some (row, col), ev := r }] ∧
          p.kind = (if s.mode = .load then .inLoad
            else if s.ttb.ckDone = false ∨ getFlag s Reg.ldrCkptStat 31 = false then .noCkpt
            else if s.ttb.sentFor = some s.ttb.passSail then .rollback else .full)) ∧
      (lasting → act = 1 → row < 16 → ¬ out → s.wdn.held = false → col ≠ 16 ∨ rowByp s row ≠ 0x1F →
        ∀ p, s.flt.repair = some p → p.step ≠ .restoring → (∃ o ∈ p.orders, o.tile = some (row, col)) →
          logged t 1 ∧ quiet t)) ∧
    (∀ wr, writerMay s wr Reg.fltLogPop = true →
      exec (.fltLogPop wr) s = .next { s with flt := { s.flt with log := s.flt.log.tail } })

/-- R505 to R512, R520, R521, R525, R526: a self-test step reports its failures and moves the set and the column on;
the substitution of a repair bypasses the tile onto a good spare, or loses the row, and sets the latches; the repair
record is written to both copies; a held module does neither (R527); the source table commits whole or not at all; a
Warden without a majority, or a third clock comparison in a row that misses, lowers HEALTHY, raises ALARM and is
logged; comparisons keep 1 ms apart; an expired sailing watchdog lowers HEALTHY too, once until LOAD (log entry 200).
How long a self-test step takes, and what a failed write of the record leaves, are the model's choices (log entries
189 and 190). -/
def Obligations.RepairsAndWardenVerdictsAct : Prop :=
  ∀ (s : State),
    let cur : Sail := if s.mode = .load then 0 else s.ttb.sail
    (∀ once twice : BitVec 16, s.hx1 = true → runs s = true → getFlag s Reg.fltCtl 0 = true → s.ttb.ticked = true →
      s.ttb.sentFor = some s.ttb.sail → s.flt.bistEnd ≤ s.now → s.helm.run = none → s.helm.preempted = none →
        s.helm.nq = [] → s.helm.uq = [] →
      s.helm.held = false → s.flt.repair = none → s.flt.bistStep < 32 →
      let col := getField s Reg.fltBist 4 0
      let tbist (m : BitVec 16) : List FltReport := ((List.range 16).filter fun r => m.getLsbD r).map fun r =>
        ⟨2, BitVec.ofNat 9 (r * 17 + col), BitVec.ofNat 32 s.flt.bistStep⟩
      ∃ t, exec (.bistStep once twice) s = .next t ∧ t.arr = s.arr ∧
        t.flt.reports = s.flt.reports ++ tbist once ++ tbist (once &&& twice) ∧
        t.flt.bistEnd = s.now + aclkTime s (if once = 0 then 1024 else 2048) ∧
        (s.flt.bistStep < 31 → t.flt.bistStep = s.flt.bistStep + 1 ∧ t.regs = s.regs) ∧
        (s.flt.bistStep = 31 → t.flt.bistStep = 0 ∧ getField t Reg.fltBist 4 0 = (if col = 16 then 0 else (col + 1) % 32) ∧
          getField t Reg.fltBist 23 16 = 0)) ∧
    (∀ p row k ev, s.flt.repair = some p → p.step = .substituting → p.orders = [{ tile := some (row, k), ev := ev }] →
      p.later = [] → s.wdn.held = false → row < 16 → k < 16 → rowLost s row = false →
      rowByp s row ≠ k → s.flt.log.length < 60 → s.ttb.ckWait = false → p.clearEnd ≤ s.now → s.flt.bistEnd ≤ s.now →
      let good := rowByp s row = 0x1F ∧ row ∉ s.flt.spareBad
      ∃ t, exec .substitutionDone s = .next t ∧ t.arr.m = livePes t ∧ t.arr.c = 0 ∧ t.arr.d = 0 ∧ t.arr.x = 0 ∧
        t.arr.q = 0 ∧
        (good → rowByp t row = k ∧ rowLost t row = false) ∧
        (¬ good → rowLost t row = true ∧ bits (tmap t row) 13 9 = k ∧ getFlag t Reg.fltLost row = true ∧
          (⟨4, ev.src, ev.inst, ev.detail, cur⟩ : LogEntry) ∈ t.flt.log ∧ Order.degrade ∈ t.wdn.orders) ∧
        (p.kind = .inLoad → t.flt.repair = none ∧ t.flt.recordDue = true ∧
          (⟨2, ev.src, ev.inst, ev.detail, cur⟩ : LogEntry) ∈ t.flt.log) ∧
        (p.kind = .noCkpt → t.flt.repair = none ∧ t.flt.recordDue = true ∧ getFlag t Reg.fltStat 6 = true ∧
          (⟨5, ev.src, ev.inst, ev.detail, cur⟩ : LogEntry) ∈ t.flt.log) ∧
        (p.kind = .full ∨ p.kind = .rollback → t.flt.repair = some { p with step := .restoring } ∧
          t.ldr.restore = some s.ldr.ckPlanes)) ∧
    (s.wdn.held = true → exec .substitutionDone s = .next s ∧ ∀ ok, exec (.repairRecordWrite ok) s = .next s) ∧
    (s.hx1 = true → s.flt.recordDue = true → s.wdn.held = false →
      ∃ n, (∀ m l, s.wdn.recordA = some (m, l) ∨ s.wdn.recordB = some (m, l) → m < n) ∧
        let written := some (n, (List.range 16).map (tmap s))
        (∃ t, exec (.repairRecordWrite true) s = .next t ∧ t.flt = { s.flt with recordDue := false } ∧
          t.wdn = { s.wdn with recordA := written, recordB := written }) ∧
        ∃ t a b, exec (.repairRecordWrite false) s = .next t ∧ t.flt = { s.flt with recordDue := false } ∧
          getFlag t Reg.fltStat 5 = true ∧ t.wdn = { s.wdn with recordA := a, recordB := b } ∧
          (((a = s.wdn.recordA ∨ a = none) ∧ b = s.wdn.recordB) ∨ (a = written ∧ (b = s.wdn.recordB ∨ b = none)))) ∧
    (∀ wr, writerMay s wr Reg.fltSrcCommit = true →
      let v (n : Nat) := reg s (Reg.fltSrc + 4 * n)
      let badAct (n : Nat) : Prop := (bits (v n) 28 27 = 1 ∧ 2 < n) ∨ (bits (v n) 28 27 = 2 ∧ n ≠ 9)
      let badReplay (n : Nat) : Prop := bit (v n) 29 = true ∧ n ≠ 1
      let bad (n : Nat) : Prop := badAct n ∨ badReplay n
      (∀ n, n < 20 → bad n → (∀ m, m < n → ¬ bad m) → ∃ t, exec (.fltSrcCommit wr) s = .next t ∧ t.flt = s.flt ∧
        reg t Reg.fltSrcCstat = BitVec.ofNat 32 (n * 256) + (if badAct n then 1 else 2)) ∧
      ((∀ n, n < 20 → ¬ bad n) → ∃ t, exec (.fltSrcCommit wr) s = .next t ∧ reg t Reg.fltSrcCstat = 0 ∧
        ∀ n, n < 20 → storeGet 0 t.flt.src n = v n)) ∧
    (∀ wr, writerMay s wr Reg.fltSwdCommit = true → ∃ t, exec (.fltSwdCommit wr) s = .next t ∧
      t.flt = { s.flt with swdNext := reg s Reg.fltSwd }) ∧
    (s.hx1 = true → s.flt.log.length < 64 →
      let verdict (t : State) (detail : Word) : Prop :=
        t.wdn.healthy = false ∧ t.wdn.noHealth = true ∧ t.wdn.pulse = s.wdn.pulse ∧ t.mode = s.mode ∧ 3 ∈ t.plt.alarms ∧
        t.flt.log = s.flt.log ++ [⟨8, 0x12, 0, detail, cur⟩] ∧ t.regs = s.regs
      (∃ t, exec .wardenNoMajority s = .next t ∧ verdict t 3) ∧
      (∀ apart at_, s.wdn.clkNext = some at_ → s.now < at_ → exec (.clockComparison apart) s = .next s) ∧
      (∀ next, s.wdn.clkNext = none ∧ next = s.now + 1000000 ∨
          (∃ at_, s.wdn.clkNext = some at_ ∧ at_ ≤ s.now ∧ next = at_ + 1000000) →
        (s.wdn.clkMiss = 2 → ∃ t, exec (.clockComparison true) s = .next t ∧ verdict t 2 ∧ t.wdn.clkNext = some next) ∧
        (s.wdn.clkMiss ≠ 2 → exec (.clockComparison true) s =
          .next { s with wdn := { s.wdn with clkMiss := s.wdn.clkMiss + 1, clkNext := some next } }) ∧
        exec (.clockComparison false) s = .next { s with wdn := { s.wdn with clkMiss := 0, clkNext := some next } }) ∧
      (∀ at_, s.wdn.swdAt = some at_ → at_ ≤ s.now → s.wdn.expired = false → s.mode = .run ∨ s.mode = .degraded →
        ∃ t, exec .sailingWatchdogExpiry s = .next t ∧ verdict t 1 ∧ t.wdn.expired = true) ∧
      ∃ t, exec .tmrCopyDisagreement s = .next t ∧
        getField t Reg.fltWdn 15 8 = min (getField s Reg.fltWdn 15 8 + 1) 255 ∧ t.wdn = s.wdn)

/-! ## Supply, modes, boot and SMBus -/

/-- R529, R544, R545: low VIN starts the hold-up and, still low at its end, a brown-out; overvoltage, a junction at
125 °C, a rail fault and an unlocked PLL take a running module to STANDBY with their cause; without its supply the
Warden resets, and a tag flash write that runs is cut, which may cost the copy it writes (log 205, the model's
choice); the loss of REFCLK takes the link down and is reported. -/
def Obligations.SupplyFaultsShutTheModuleDown : Prop :=
  ∀ (s : State) (mv : BitVec 16),
    let on := s.mode = .load ∨ runs s = true
    let shut (t : State) (cause : BitVec 8) : Prop :=
      t.mode = .standby ∧ t.hx1 = false ∧ t.wdn.healthy = false ∧ t.wdn.pulse = s.wdn.pulse ∧ t.wdn.cause = cause ∧
      t.wdn.flash = s.wdn.flash ∧ t.wdn.tags = s.wdn.tags ∧ reg t Reg.pwrWakecfg = reg s Reg.pwrWakecfg ∧
      t.plt = PilotState.load ∧ t.arr = ArrayState.load
    (on → mv.toNat < 5800 → ∃ t, exec (.vinLow mv) s = .next t ∧ t.wdn.vin = mv ∧ t.mode = s.mode ∧
      (s.wdn.holdup = none → t.wdn.holdup = some s.now ∧
        t.flt.reports = s.flt.reports ++ [⟨0x0F, 0, mv.zeroExtend 32⟩]) ∧
      (s.wdn.holdup ≠ none → t.wdn.holdup = s.wdn.holdup ∧ t.flt = s.flt) ∧
      (5000 ≤ mv.toNat → t.wdn.sagging = none) ∧
      (mv.toNat < 5000 → s.wdn.sagging = none → t.wdn.sagging = some s.now)) ∧
    (∀ since, s.wdn.holdup = some since → on → since + 200000 ≤ s.now →
      ∃ t, exec .brownOut s = .next t ∧ shut t 3) ∧
    (s.mode ≠ .off → mv.toNat < 4500 ∨ (mv.toNat < 5000 ∧ ∃ since, s.wdn.sagging = some since ∧
      since + 50000000 ≤ s.now) →
      ∃ t, exec (.wardenPowerLoss mv) s = .next t ∧ t.mode = .off ∧ t.hx1 = false ∧ t.wdn.healthy = false ∧
        t.wdn.flash = s.wdn.flash ∧
        (s.wdn.tagBusy = none ∨ s.wdn.tagNextB = true → t.wdn.tagA = s.wdn.tagA) ∧
        (s.wdn.tagBusy = none ∨ s.wdn.tagNextB = false → t.wdn.tagB = s.wdn.tagB)) ∧
    (s.mode ≠ .off → 4500 ≤ mv.toNat → (∀ since, s.wdn.sagging = some since → s.now < since + 50000000) →
      exec (.wardenPowerLoss mv) s = .next s) ∧
    (on → 58500 < mv.toNat → ∃ t, exec (.overvoltageShutdown mv) s = .next t ∧ shut t 4) ∧
    (s.mode = .standby → 58500 < mv.toNat → ∃ t, exec (.overvoltageShutdown mv) s = .next t ∧ t.mode = .standby ∧
      t.wdn.vin = mv) ∧
    (∀ j : BitVec 16, on → 2000 ≤ j.toInt → ∃ t, exec (.thermalShutdown j) s = .next t ∧ shut t 5 ∧
      t.wdn.thermal = some (s.now + 10000000000) ∧ t.wdn.alert.getLsbD 3 = true) ∧
    (∀ (i : BitVec 4) v, on → 2 ≤ i.toNat → i.toNat ≤ 6 → ∃ t, exec (.railFault i v) s = .next t ∧ shut t 6) ∧
    (∀ v, on → ∃ t, exec (.pllFault v) s = .next t ∧ shut t 7) ∧
    (∀ v, s.hx1 = true → ∃ t, exec (.refclkLost v) s = .next t ∧ t.que.linkUp = false ∧
      t.flt.reports = s.flt.reports ++ [⟨0x0F, 11, v⟩] ∧ t.mode = s.mode)

/-- R531 to R534, R543, R544: VIN above 5.5 V takes OFF to STANDBY; IGN_WAKE, SMBus WAKE and PERST_N start a wake
where VIN and the thermal block allow one; its debounce of 10 ms, which the 10 ms of IGN_WAKE or of a returned VIN
are already (the model's inference, log entry 191), leads to LOAD; a falling IGN_WAKE starts the IGNOFF timer, whose
expiry orders SLEEP while WAKECFG.IGN is set, and a rising one cancels it. The thermal block stands for 10 s and while the
Warden's sensor reads above 95 °C; IGN_WAKE wakes by its level once it has stood high for 10 ms. -/
def Obligations.WakesAndIgnitionAct : Prop :=
  ∀ (s : State),
    let good := 6200 ≤ s.wdn.pinVin.toNat ∧ s.wdn.pinVin.toNat ≤ 58000
    let cool := ∀ at_, s.wdn.thermal = some at_ → at_ ≤ s.now ∧ s.wdn.wardenHot = false
    let may := s.mode = .standby ∧ s.wdn.waking = none ∧ good ∧ cool
    let cfg (k : Nat) : Prop := getFlag s Reg.pwrWakecfg k = true
    let woken (code : BitVec 4) (t : State) : State := { t with wdn := { t.wdn with
      waking := some code, dueAt := s.now + (if code = 2 ∨ code = 3 then 10000000 else 0) } }
    let on := s.mode = .load ∨ runs s = true
    (∀ mv straps ign, s.mode = .off → 5500 < mv.toNat → ∃ t, exec (.vinRise mv straps ign) s = .next t ∧
      t.mode = .standby ∧ t.wdn.healthy = false ∧ t.wdn.vin = mv ∧ t.wdn.ign = ign ∧ t.wdn.smbNode = straps.node ∧
      (∀ m x n y, s.wdn.tagA = some (m, x) → s.wdn.tagB = some (n, y) → t.wdn.tags = if m < n then y else x) ∧
      (s.wdn.tagA = none → s.wdn.tagB = none → t.wdn.tags = []) ∧
      (ign = true → cfg 0 → s.wdn.ignBlocked = false → s.wdn.waking = none → s.wdn.thermal = none →
        6200 ≤ mv.toNat → mv.toNat ≤ 58000 → t.wdn.waking = some 1) ∧
      (ign = false → t.wdn.waking = s.wdn.waking)) ∧
    (∀ mv straps ign, s.mode ≠ .off → ∃ t, exec (.vinRise mv straps ign) s = .next t ∧ t.mode = s.mode ∧ t.wdn.vin = mv ∧
      t.regs = s.regs ∧ (6200 < mv.toNat → t.wdn.holdup = none) ∧ (5000 ≤ mv.toNat → t.wdn.sagging = none)) ∧
    (may → cfg 0 → s.wdn.ignBlocked = false → exec .ignWakeHigh s =
      .next (woken 1 { s with wdn := { s.wdn with ign := true, ignDue := s.now } })) ∧
    (s.mode ≠ .off → ¬ may ∨ ¬ cfg 0 ∨ s.wdn.ignBlocked = true →
      exec .ignWakeHigh s = .next { s with wdn := { s.wdn with ign := true, ignDue := s.now } }) ∧
    (may → cfg 1 → exec .smbWake s = .next (woken 2 s)) ∧
    (¬ may ∨ ¬ cfg 1 → exec .smbWake s = .next s) ∧
    (may → cfg 2 → s.que.perst = true → exec .perstNRise s = .next (woken 3 { s with que := { s.que with perst := false } })) ∧
    (s.mode = .standby → s.wdn.rewake = true → s.wdn.ign = true → s.wdn.ignDue ≤ s.now → cfg 0 →
      s.wdn.ignBlocked = false → cool → s.wdn.waking = none → s.wdn.dueAt ≤ s.now → ∃ t, exec .vinReturnWake s = .next t ∧
        6200 ≤ t.wdn.vin.toNat ∧ t.wdn.vin.toNat ≤ 58000 ∧ t.wdn.waking = some (if s.wdn.cause = 3 then 4 else 1)) ∧
    (∀ at_, s.wdn.thermal = some at_ → s.mode = .standby → at_ ≤ s.now →
      exec (.thermalWakeBlockEnd true) s = .next { s with wdn := { s.wdn with wardenHot := true } } ∧
      ∃ t, exec (.thermalWakeBlockEnd false) s = .next t ∧ t.wdn.wardenHot = false ∧
        (s.wdn.rewake = true → s.wdn.ign = true → s.wdn.ignDue ≤ s.now → cfg 0 → s.wdn.ignBlocked = false → good →
          s.wdn.waking = none →
          t.wdn.waking = some 1)) ∧
    (s.now < s.wdn.dueAt → exec .vinReturnWake s = .next s ∧ exec .wakeDebounceEnd s = .next s) ∧
    (∀ code, s.wdn.waking = some code → s.mode = .standby → s.wdn.dueAt ≤ s.now →
      ∃ t, exec .wakeDebounceEnd s = .next t ∧ t.mode = .load ∧ t.wdn.dueAt = s.now + 500000 ∧
      t.wdn.wake = code ∧ t.wdn.waking = none ∧ t.wdn.rails = true ∧ t.hx1 = s.hx1) ∧
    (s.mode ≠ .off → exec .ignWakeRise s =
      .next { s with wdn := { s.wdn with
        ign := true, ignDue := if s.wdn.ign = true then s.wdn.ignDue else s.now + 10000000, ignBlocked := false
        ignOff := none } }) ∧
    (let fallen : State := { s with wdn := { s.wdn with ign := false, ignBlocked := false } }
      let off := bits (reg s Reg.pwrWakecfg) 15 8
      (s.mode ≠ .off → ¬ on ∨ ¬ cfg 0 → exec .ignWakeFall s = .next fallen) ∧
      (on → cfg 0 → s.wdn.held = false → 0 < off → exec .ignWakeFall s =
        .next { fallen with wdn := { fallen.wdn with ignOff := some (s.now + off * 1000000000) } }) ∧
      (on → cfg 0 → s.wdn.held = true ∨ off = 0 → runs s = false ∨ s.wdn.held = true ∨ s.wdn.noHealth = true →
        ∃ t, exec .ignWakeFall s = .next t ∧ t.mode = .standby ∧ t.hx1 = false ∧ t.wdn.cause = 2) ∧
      (runs s = true → cfg 0 → s.wdn.held = false → off = 0 → s.wdn.noHealth = false →
        ∃ t, exec .ignWakeFall s = .next t ∧ t.mode = s.mode ∧ Order.sleep 2 ∈ t.wdn.orders)) ∧
    (∀ at_, s.wdn.ignOff = some at_ → at_ ≤ s.now → on →
      (¬ cfg 0 → exec .ignoffExpiry s = .next { s with wdn := { s.wdn with ignOff := none } }) ∧
      (cfg 0 → runs s = false ∨ s.wdn.held = true ∨ s.wdn.noHealth = true →
        ∃ t, exec .ignoffExpiry s = .next t ∧ t.mode = .standby ∧ t.hx1 = false ∧ t.wdn.cause = 2) ∧
      (cfg 0 → runs s = true → s.wdn.held = false → s.wdn.noHealth = false →
        ∃ t, exec .ignoffExpiry s = .next t ∧ t.mode = s.mode ∧ Order.sleep 2 ∈ t.wdn.orders ∧ t.wdn.ignOff = none))

/-- R252, R517, R532, R536, R537, R546, R547: SLEEP and RESTART act at once where no tick comes, and wait for the
tick otherwise; an accepted RUNREQ enters RUN or DEGRADED and arms the watchdog, one that is not ready is refused,
and one of the host is denied; a clock request waits for its sailing. RESTART in LOAD, which R532's table does not
list, does nothing (log 131, DEDUCED). -/
def Obligations.ModeCommandsAct : Prop :=
  ∀ (s : State) (wr : Writer),
    let atOnce := runs s = false ∨ s.wdn.held = true ∨ s.wdn.noHealth = true
    let asleep (t : State) (cause : BitVec 8) : Prop := t.mode = .standby ∧ t.hx1 = false ∧ t.wdn.cause = cause
    let reload (t : State) : Prop := t.mode = .load ∧ t.hx1 = false ∧ t.wdn.resetting = true ∧ t.wdn.wake = 5 ∧
      t.wdn.others = [] ∧ t.wdn.healthy = false ∧ t.wdn.flash = s.wdn.flash
    let later (t : State) (o : Order) : Prop := t.mode = s.mode ∧ o ∈ t.wdn.orders ∧ t.ttb = s.ttb ∧ t.mem = s.mem
    (writerMay s wr Reg.pwrCmd = true → s.wdn.held = false →
      (atOnce → ∃ t, exec (.sleep wr) s = .next t ∧ asleep t 1) ∧
      (runs s = false → exec (.restart wr) s = .next (setReg s Reg.pwrCmdCstat 0)) ∧
      (runs s = true → atOnce → ∃ t, exec (.restart wr) s = .next t ∧ reload t) ∧
      (¬ atOnce → (∃ t, exec (.sleep wr) s = .next t ∧ later t (.sleep 1)) ∧
        ∃ t, exec (.restart wr) s = .next t ∧ later t .restart)) ∧
    (writerMay s wr Reg.pwrCmd = true → s.wdn.held = true → exec (.sleep wr) s = .next s ∧
      exec (.restart wr) s = .next s) ∧
    (getFlag s Reg.pwrWakecfg 1 = true → s.mode = .load ∨ runs s = true →
      (atOnce → ∃ t, exec .smbSleep s = .next t ∧ asleep t 1) ∧
      (s.mode = .load → exec .smbRestart s = .next s) ∧
      (runs s = true → atOnce → ∃ t, exec .smbRestart s = .next t ∧ reload t) ∧
      (¬ atOnce → (∃ t, exec .smbSleep s = .next t ∧ later t (.sleep 1)) ∧
        ∃ t, exec .smbRestart s = .next t ∧ later t .restart)) ∧
    (getFlag s Reg.pwrWakecfg 1 = false → exec .smbSleep s = .next s ∧ exec .smbRestart s = .next s) ∧
    (writerMay s wr Reg.pwrAclkCommit = true → ∃ t, exec (.pwrAclkCommit wr) s = .next t ∧
      t.wdn.aclkPend = some { n := bits (reg s Reg.pwrAclk) 4 0, asap := bit (reg s Reg.pwrAclk) 8,
                              tgt := BitVec.ofNat 48 (reg2 s Reg.pwrAclkTgtLo Reg.pwrAclkTgtHi) } ∧
      t.wdn.aclkEff = s.wdn.aclkEff ∧ t.regs = s.regs) ∧
    (∀ j, writerMay s wr Reg.pwrCmd = true →
      let ready := s.mode = .load ∧ getFlag s Reg.drcStat 1 = true ∧ s.wdn.verified = true ∧
        slotOf s s.wdn.slot0.toNat ≠ none
      let worse := s.wdn.degradedFor = true ∨ reg s Reg.fltLost ≠ 0 ∨ true ∈ s.wdn.pilotBad
      (wr = .host → exec (.runreq wr j) s = .next (setReg s Reg.pwrCmdCstat 2)) ∧
      (wr ≠ .host → ¬ ready → exec (.runreq wr j) s = .next (setReg s Reg.pwrCmdCstat 1)) ∧
      (wr ≠ .host → ready → ∃ e, e.mode = (if worse then .degraded else .run) ∧ reg e Reg.pwrCmdCstat = 0 ∧
        e.wdn.bootlim = none ∧ e.wdn.swdAt = some (s.now + bits s.flt.swd 15 0 * 1000000) ∧ e.wdn.unmarked = 0 ∧
        e.wdn.healthy = s.wdn.healthy ∧ e.ttb = { s.ttb with lastTick := s.now } ∧ e.mem = s.mem ∧
        exec (.runreq wr j) s = .next (if tickSrc s = 1 then takeTick e 1 false none j else e)))

/-- R118, R512, R531, R532, R539 to R542, R549: when the HX1 leaves reset the Warden's readings are cleared, the
repair record is applied and the image's header judged; the self-test's verdict on the Pilots is recorded; an image
whose sections pass starts the Pilots; one that fails, or outlasts BOOTLIM, gives way to the other, and the boot
fails where none is left. -/
def Obligations.BootTriesItsImages : Prop :=
  ∀ (s : State),
    let failed (t : State) (code : BitVec 8) : Prop := t.mode = .standby ∧ t.hx1 = false ∧ t.wdn.bootCode = code ∧
      t.wdn.cause = 8 ∧ t.wdn.alert.getLsbD 2 = true
    let another (t : State) (code : BitVec 8) (rest : List (BitVec 1)) : Prop := t.mode = .load ∧ t.hx1 = false ∧
      t.wdn.resetting = true ∧ t.wdn.bootCode = code ∧ t.wdn.others = rest
    let active : BitVec 1 := match s.wdn.control with | some (a, _) => a | none => 0
    let released (straps : Straps) (r : Result) : Prop :=
      let order := if s.wdn.others ≠ [] then s.wdn.others
        else if straps.bootSel = true then [active ^^^ 1, active] else [active, active ^^^ 1]
      (Config.otpGood = false → ∃ t, r = .next t ∧ failed t 7) ∧
      (∀ i rest, Config.otpGood = true → order = i :: rest →
        let code := headerCode s i
        (code = 0 → ∃ t, r = .next t ∧ t.mode = .load ∧ t.hx1 = true ∧ t.wdn.booting = true ∧ t.wdn.verified = false ∧
          t.wdn.image = i ∧ t.wdn.others = rest ∧ t.wdn.straps = straps ∧ t.wdn.rails = false ∧ t.wdn.resetting = false ∧
          t.plt.started = false ∧ t.wdn.bootCode = 0 ∧ t.wdn.vin = 0 ∧ t.wdn.vinMin = 0 ∧ t.wdn.tempJ = 0 ∧
            t.wdn.tempW = 0 ∧
          t.wdn.power = 0 ∧
          (∀ l, newerRecord s.wdn.recordA s.wdn.recordB = some l → ∀ n, n < 16 → tmap t n = l.getD n 0x3E1F) ∧
          (s.wdn.recordA = none → s.wdn.recordB = none → getFlag t Reg.fltStat 4 = true)) ∧
        (code ≠ 0 → rest ≠ [] → ∃ t, r = .next t ∧ another t (BitVec.ofNat 8 code) rest) ∧
        (code ≠ 0 → rest = [] → ∃ t, r = .next t ∧ failed t (BitVec.ofNat 8 code)))
    (∀ straps, s.mode = .load → s.wdn.rails = true → s.wdn.dueAt ≤ s.now →
      released straps (exec (.hx1ResetRelease straps) s)) ∧
    (∀ straps, s.mode = .load → s.wdn.resetting = true → s.wdn.dueAt ≤ s.now →
      released straps (exec (.moduleResetEnd straps) s)) ∧
    (s.mode = .load → s.hx1 = true → s.wdn.selfTested = false →
      (∃ t, exec (.pilotSelfTestEnd false false) s = .next t ∧ failed t 8) ∧
      (∃ t, exec (.pilotSelfTestEnd true true) s = .next t ∧ t.wdn.selfTested = true ∧ t.wdn.pilotBad = [false, false] ∧
        t.plt = s.plt ∧ t.wdn.degradedFor = s.wdn.degradedFor) ∧
      (∃ t, exec (.pilotSelfTestEnd true false) s = .next t ∧ t.wdn.pilotBad = [false, true] ∧
        t.plt = { s.plt with solo := true, survivor := false } ∧ t.wdn.degradedFor = true) ∧
      ∃ t, exec (.pilotSelfTestEnd false true) s = .next t ∧ t.wdn.pilotBad = [true, false] ∧
        t.plt = { s.plt with solo := true, survivor := true } ∧ t.wdn.degradedFor = true) ∧
    (s.mode = .load → s.hx1 = true → s.wdn.booting = true → s.wdn.verified = false → s.wdn.selfTested = true →
      getFlag s Reg.drcStat 1 = true →
      let i := s.wdn.image
      let a := imageBase i
      let bs (x : Section) : List Byte := flashBytes s (a + x.off) x.len
      let hashes := ∀ x ∈ sectionsOf s i, sha256 (bs x) = x.hash
      let ucrc : Word := BitVec.ofNat 32 (flashNum s (a + 0x10) 4)
      let gaveUp (r : Result) (code : BitVec 8) : Prop :=
        (∀ rest, s.wdn.others = rest → rest ≠ [] → ∃ t, r = .next t ∧ another t code rest) ∧
        (s.wdn.others = [] → ∃ t, r = .next t ∧ failed t code)
      (¬ hashes → (∀ x ∈ sectionsOf s i, x.type ≠ 5 ∧ x.type ≠ 6) → gaveUp (exec .imageSectionsVerified s) 4) ∧
      (hashes → (∀ x ∈ sectionsOf s i, x.type ≠ 2) → storeCrc s.helm.store ≠ ucrc →
        gaveUp (exec .imageSectionsVerified s) 5) ∧
      (hashes → (∀ x ∈ sectionsOf s i, x.type ≠ 2) → storeCrc s.helm.store = ucrc →
        ∃ t, exec .imageSectionsVerified s = .next t ∧ t.mode = .load ∧ t.wdn.verified = true ∧ t.plt.started = true ∧
          t.plt.pc = 0 ∧ t.arr = { ArrayState.load with m := livePes t } ∧
            t.wdn.slot0 = BitVec.ofNat 4 (flashNum s (a + 0x14) 1) ∧
          t.wdn.iver = BitVec.ofNat 32 (flashNum s (a + 8) 4) ∧
          reg t Reg.hlmUcodeVer = BitVec.ofNat 32 (flashNum s (a + 0xC) 4) ∧ reg t Reg.hlmUcodeCrc = ucrc ∧
          t.wdn.bootlim = some (s.now + bits (reg s Reg.pwrWakecfg) 19 16 * 1000000000) ∧
          (∀ x, sectionsOf s i = [x] → x.type = 1 → x.dest + x.len ≤ 0x800000 → ∀ k, k < x.len →
            memByte t (bankAddr 0 (x.dest + k)) = flashByte s (a + x.off + k)))) ∧
    (∀ at_, s.wdn.bootlim = some at_ → at_ ≤ s.now → s.mode = .load →
      (s.wdn.limits = 0 → ∀ rest, s.wdn.others = rest → rest ≠ [] →
        ∃ t, exec .bootlimExpiry s = .next t ∧ another t 6 rest ∧ t.wdn.limits = 1) ∧
      (1 ≤ s.wdn.limits ∨ s.wdn.others = [] → ∃ t, exec .bootlimExpiry s = .next t ∧ failed t 6))

/-- R543, R546, R548: a tag write changes the Warden's copy, or waits for the flash write that runs, and is owed to
flash, which takes it in the copy whose turn it is; of writes at one instant the SMBus one stands, and one whose PEC
is wrong (its algorithm is SMBus's own, log 140, PRESUMED) is none. The flash window refuses its protected ranges,
and an operation while another one, a tag write or an image read runs, and moves a page or erases a sector. -/
def Obligations.TagsAndFlashAreWritten : Prop :=
  ∀ (s : State) (wr : Writer),
    (∀ (n : BitVec 7) (v : Word), writerMay s wr (Reg.wdnTag + 4 * n.toNat) = true →
      let x : TagWrite := { came := s.now, smb := false, first := 4 * n.toNat, bytes := bytesOf v.toNat 4 }
      let covered (a : Nat) : Prop := ∃ y, s.wdn.tagSmb = some y ∧ y.came = s.now ∧ y.first ≤ a ∧
        a < y.first + y.bytes.length
      ∃ t, exec (.tagAreaWrite wr n v) s = .next t ∧ t.wdn.tagDirty = true ∧ t.wdn.tagA = s.wdn.tagA ∧
        t.wdn.tagB = s.wdn.tagB ∧ t.regs = s.regs ∧
        (s.wdn.tagBusy = none → ∀ a, tagByte t a =
          if 4 * n.toNat ≤ a ∧ a < 4 * n.toNat + 4 ∧ ¬ covered a then (v >>> (8 * (a - 4 * n.toNat))).truncate 8
          else tagByte s a) ∧
        (s.wdn.tagBusy ≠ none → t.wdn.tagWaits = s.wdn.tagWaits ++ [x] ∧ t.wdn.tags = s.wdn.tags)) ∧
    (∀ b : WithPec (List Byte), s.mode ≠ .off →
      let bs := b.val
      let x : TagWrite := { came := s.now, smb := true, first := 32 * s.wdn.tagPtr, bytes := bs }
      let right := ∀ p, b.pec = some p → p = pec (smbHead s 0x22 ++ BitVec.ofNat 8 bs.length :: bs)
      (bs.length = 32 → right → ∃ t, exec (.smbTagWrite b) s = .next t ∧ t.wdn.tagDirty = true ∧
        (s.wdn.tagBusy = none → ∀ a, tagByte t a =
          if 32 * s.wdn.tagPtr ≤ a ∧ a < 32 * s.wdn.tagPtr + 32 then bs.getD (a - 32 * s.wdn.tagPtr) 0 else tagByte s a) ∧
        (s.wdn.tagBusy ≠ none → t.wdn.tagWaits = s.wdn.tagWaits ++ [x] ∧ t.wdn.tags = s.wdn.tags)) ∧
      (bs.length ≠ 32 ∨ ¬ right → exec (.smbTagWrite b) s = .next s)) ∧
    (s.mode ≠ .off → s.wdn.tagDirty = true →
      let applied (t : State) : Prop := t.wdn.tagBusy = none ∧ t.wdn.tagWaits = [] ∧
        (s.wdn.tagWaits = [] → t.wdn.tags = s.wdn.tags) ∧
        (∀ x, s.wdn.tagWaits = [x] → x.smb = true ∨ s.wdn.tagSmb = none → t.wdn.tagDirty = true ∧ ∀ a, tagByte t a =
          if x.first ≤ a ∧ a < x.first + x.bytes.length then x.bytes.getD (a - x.first) 0 else tagByte s a)
      (∃ t n, exec (.tagFlashWrite true) s = .next t ∧ t.wdn.tagNextB = !s.wdn.tagNextB ∧ applied t ∧
        (s.wdn.tagWaits = [] → t.wdn.tagDirty = false) ∧
        (s.wdn.tagNextB = true → t.wdn.tagB = some (n, s.wdn.tags) ∧ t.wdn.tagA = s.wdn.tagA) ∧
        (s.wdn.tagNextB = false → t.wdn.tagA = some (n, s.wdn.tags) ∧ t.wdn.tagB = s.wdn.tagB) ∧
        ∀ m l, s.wdn.tagA = some (m, l) ∨ s.wdn.tagB = some (m, l) → m < n) ∧
      ∃ t, exec (.tagFlashWrite false) s = .next t ∧ t.wdn.tagDirty = true ∧ applied t ∧
        getFlag t Reg.wdnTagstat 1 = true ∧ t.wdn.alert.getLsbD 4 = true ∧
        (s.wdn.tagNextB = true → t.wdn.tagA = s.wdn.tagA) ∧ (s.wdn.tagNextB = false → t.wdn.tagB = s.wdn.tagB)) ∧
    (writerMay s wr Reg.wdnFlCmd = true →
      let page := bits (reg s Reg.wdnFlAddr) 26 12
      let shut := (0x10 ≤ page ∧ page < 0x20) ∨ (0x30 ≤ page ∧ page < 0xC00)
      let busy := s.wdn.flashOp ≠ none ∨ s.wdn.tagBusy ≠ none ∨ (s.wdn.booting = true ∧ s.wdn.verified = false)
      let with_ (op : Option FlashOp) (code : BitVec 4) : Result :=
        .next { s with wdn := { s.wdn with flashOp := op, flashCode := code } }
      ∀ c op, (c, op) ∈ [(exec (.flashRead wr) s, FlashOp.read page), (exec (.flashProgram wr) s, .program page),
          (exec (.flashErase wr) s, .erase (page / 16))] →
        (shut → c = with_ s.wdn.flashOp 2) ∧ (¬ shut → busy → c = with_ s.wdn.flashOp 1) ∧
        (¬ shut → ¬ busy → c = with_ (some op) 1)) ∧
    (∀ page, s.wdn.flashOp = some (.read page) → ∃ t, exec (.flashOpDone true) s = .next t ∧ t.wdn.flashOp = none ∧
      t.wdn.flashCode = 0 ∧ t.wdn.flash = s.wdn.flash ∧
      ∀ k, k < 1024 → (reg t (Reg.wdnFlBuf + 4 * k)).toNat = flashNum s (4096 * page + 4 * k) 4) ∧
    (∀ page, s.wdn.flashOp = some (.program page) → page ∉ s.wdn.programmed →
      ∃ t, exec (.flashOpDone true) s = .next t ∧ t.wdn.flashOp = none ∧ t.wdn.flashCode = 0 ∧ page ∈ t.wdn.programmed ∧
        ∀ a, flashByte t a = if 4096 * page ≤ a ∧ a < 4096 * page + 4096 then
            (reg s (Reg.wdnFlBuf + (a - 4096 * page) / 4 * 4) >>> (8 * (a % 4))).truncate 8
          else flashByte s a) ∧
    (∀ k, s.wdn.flashOp = some (.erase k) → ∃ t, exec (.flashOpDone true) s = .next t ∧ t.wdn.flashOp = none ∧
      t.wdn.flashCode = 0 ∧
      (∀ a, flashByte t a = if 65536 * k ≤ a ∧ a < 65536 * k + 65536 then 0xFF else flashByte s a) ∧
      ∀ p, p ∈ t.wdn.programmed ↔ p ∈ s.wdn.programmed ∧ p / 16 ≠ k) ∧
    (∀ op, s.wdn.flashOp = some op → ∃ t, exec (.flashOpDone false) s = .next t ∧ t.wdn.flashOp = none ∧
      t.wdn.flashCode = 3 ∧ ∀ a, (∀ p, op = .program p → a / 4096 ≠ p) → (∀ k, op = .erase k → a / 65536 ≠ k) →
        flashByte t a = flashByte s a)

/-- R546, R587: the Warden answers its SMBus commands from its own state, in every powered mode, with the PEC of the
message behind the data of a read; it takes a write whose PEC, if sent, is right. The PEC's algorithm is SMBus's own
(log 140, PRESUMED). -/
def Obligations.SmbusIsServed : Prop :=
  ∀ (s : State), s.mode ≠ .off →
    let w := s.wdn
    let check (cmd : Byte) (bytes : List Byte) : Nat :=
      (pec (smbHead s cmd ++ BitVec.ofNat 8 (2 * smbAddress s + 1) :: bytes)).toNat
    let byte (cmd : Byte) (n : Nat) (v : WdnState) : Result :=
      .next { s with reply := [n, check cmd [BitVec.ofNat 8 n]], wdn := v }
    let word (cmd : Byte) (n : Nat) (v : WdnState) : Result :=
      .next { s with reply := [n, check cmd (bytesOf n 2)], wdn := v }
    let block (cmd : Byte) (l : List Byte) (v : WdnState) : Result :=
      .next { s with reply := l.map BitVec.toNat ++ [check cmd (BitVec.ofNat 8 l.length :: l)], wdn := v }
    let right (cmd : Byte) (v : WithPec Byte) : Prop := ∀ p, v.pec = some p → p = pec (smbHead s cmd ++ [v.val])
    let b (x : Bool) (k : Nat) : Nat := if x = true then k else 0
    let code := match s.mode with | .off => 0 | .standby => 1 | .load => 2 | .run => 3 | .degraded => 4 | .bench => 5
    exec .smbMode s = byte 0x01 (code + b w.healthy 8 + b w.held 16 + b w.expired 32) w ∧
    exec .smbWardenStatus s = word 0x02 (w.wake.toNat * 256 + w.cause.toNat) w ∧
    (∀ mv : BitVec 16, ∃ t, exec (.smbVin mv) s = .next t ∧ t.reply = [mv.toNat, check 0x10 (bytesOf mv.toNat 2)] ∧
      t.wdn.vin = mv ∧ t.regs = s.regs) ∧
    (∀ v : BitVec 16, s.hx1 = true → exec (.smbTempJunction v) s = word 0x11 v.toNat { w with tempJ := v }) ∧
    (∀ v, s.hx1 = false → exec (.smbTempJunction v) s = word 0x11 0x8000 w) ∧
    (∀ v : BitVec 16, exec (.smbTempWarden v) s =
      word 0x12 v.toNat { w with tempW := v, wardenHot := w.thermal.isSome && decide (95 * 16 < v.toInt) }) ∧
    (∀ v : BitVec 16, exec (.smbPower v) s = word 0x13 v.toNat { w with power := v }) ∧
    (∀ v, right 0x20 v → v.val.toNat < 16 → exec (.smbTagPtr v) s = .next { s with wdn := { w with tagPtr := v.val.toNat } }) ∧
    (∀ v, ¬ right 0x20 v ∨ 16 ≤ v.val.toNat → exec (.smbTagPtr v) s = .next s) ∧
    exec .smbTagRead s = block 0x21 ((List.range 32).map fun i => tagByte s (32 * w.tagPtr + i))
      { w with tagPtr := (w.tagPtr + 1) % 16 } ∧
    (∃ t, exec .smbBootStatus s = .next t ∧ t.reply.length = 9 ∧ t.wdn = w ∧ t.regs = s.regs ∧
      t.reply.getD 0 0 = w.bootCode.toNat ∧ t.reply.getD 1 0 = min w.tries 255 ∧ t.reply.getD 2 0 = w.image.toNat ∧
      t.reply.getD 4 0 = w.cal.toNat) ∧
    exec .smbIdent s = block 0x31 (partBytes ++ serialBytes ++ [0x41]) w ∧
    (∀ v, right 0x40 v → exec (.smbAlertMask (some v)) s = .next { s with wdn := { w with alertMask := v.val } }) ∧
    (∀ v, ¬ right 0x40 v → exec (.smbAlertMask (some v)) s = .next s) ∧
    exec (.smbAlertMask none) s = byte 0x40 w.alertMask.toNat w ∧
    exec .smbAlertStatus s = byte 0x41 w.alert.toNat { w with alert := 0 } ∧
    (w.alert &&& w.alertMask ≠ 0 → exec .smbAlertResponse s = .next { s with
      reply := [0x60 + w.smbNode.toNat, (pec [0x19, BitVec.ofNat 8 (2 * (0x60 + w.smbNode.toNat))]).toNat] }) ∧
    (w.alert &&& w.alertMask = 0 → exec .smbAlertResponse s = .next s) ∧
    exec .smbClkTimeout s = .next { s with reply := [] }

/-! ## Debug access -/

/-- R550 to R559: a challenge draws fresh bytes for its path, and an ANSWER is judged in order: lockout, a session of
the other path, no challenge, the response; the third bad response in a row starts the lockout; a session ends on its
own path's LOGOUT, and what it set ends with it; the TAP shows its IDCODE, its bypass bit under every code that acts as
BYPASS and, in a BENCH session, the boundary; a session of a lower level is denied EXTEST. -/
def Obligations.DebugSessionsAreAuthenticated : Prop :=
  ∀ (s : State) (path : DbgPath), s.hx1 = true →
    let d := s.dbg
    let live := ∃ c at_, d.chal = some (c, path, at_) ∧ s.now < at_
    let other := ∃ l p, d.session = some (l, p) ∧ p ≠ path
    let same (t : State) : Prop := t.plt = s.plt ∧ t.helm = s.helm ∧ t.mem = s.mem ∧ t.regs = s.regs
    (d.lockEnd = none → ∃ t c, exec (.challenge path) s = .next t ∧ same t ∧ t.free = s.free + 1 ∧
      t.dbg = { d with chal := some (c, path, s.now + 10000000000), shown := c }) ∧
    (d.lockEnd ≠ none → exec (.challenge path) s = .next { s with dbg := { d with code := 3 } }) ∧
    (∀ level, d.lockEnd ≠ none → ∃ t, exec (.answer path level) s = .next t ∧ same t ∧ t.dbg.code = 3 ∧
      t.dbg.session = d.session ∧ t.dbg.fails = d.fails ∧ (live → t.dbg.chal = none)) ∧
    (∀ level : BitVec 2, d.lockEnd = none → other → ∃ t, exec (.answer path level) s = .next t ∧ same t ∧ t.dbg.code = 4 ∧
      t.dbg.session = d.session ∧ t.dbg.fails = d.fails ∧ (live → t.dbg.chal = none)) ∧
    (∀ level, d.lockEnd = none → ¬ other → ¬ live → exec (.answer path level) s =
      .next { s with dbg := { d with code := 2 } }) ∧
    (∀ level c at_, d.lockEnd = none → ¬ other → d.chal = some (c, path, at_) → s.now < at_ →
      let want := hmacSha256 (bytesOf Config.debugKey 32)
        (bytesOf c.toNat 16 ++ [level.zeroExtend 8, if path = .jtag then 0 else 1])
      (level = 0 ∨ responseBytes s ≠ want → ∃ t, exec (.answer path level) s = .next t ∧ same t ∧ t.dbg.code = 1 ∧
        t.dbg.chal = none ∧ t.dbg.session = d.session ∧ t.dbg.fails = min 3 (d.fails + 1) ∧
        t.dbg.lockEnd = if 2 ≤ d.fails then some (s.now + 60000000000) else none) ∧
      (level ≠ 0 → responseBytes s = want → ∃ t, exec (.answer path level) s = .next t ∧ same t ∧
        t.dbg = { d with chal := none, code := 0, fails := 0, session := some (level, path) } ∧ t.mode = s.mode ∧
        (level = 3 → s.mode = .run ∨ s.mode = .degraded → Order.bench ∈ t.wdn.orders) ∧
        (level = 3 → s.mode = .load → t.wdn.benchFirst = true) ∧ (level ≠ 3 → t.wdn = s.wdn))) ∧
    (∀ l : BitVec 2, d.session = some (l, path) → 0 < l.toNat → ∃ t, exec (.logout path) s = .next t ∧
      t.dbg.session = none ∧
      t.plt.halted = false ∧ t.helm.dbgHalt = false ∧ t.helm.dbgReq = false ∧
      (∀ n, n < 4 → getFlag t (Reg.dbgIbp + 4 * n) 0 = false) ∧ (∀ n, n < 2 → getFlag t (Reg.dbgDbpc + 4 * n) 0 = false) ∧
      getFlag t Reg.dbgCtl 4 = false ∧ t.mode = s.mode ∧ t.mem = s.mem) ∧
    (d.session = none ∨ other → exec (.logout path) s = .next s) ∧
    (∀ c p at_, d.chal = some (c, p, at_) → at_ ≤ s.now →
      exec .challengeLapse s = .next { s with dbg := { d with chal := none } }) ∧
    (∀ at_, d.lockEnd = some at_ → at_ ≤ s.now → exec .lockoutEnd s = .next { s with dbg := { d with lockEnd := none } }) ∧
    exec .tapReset s = .next { s with dbg := { d with tapIr := 2 } } ∧
    exec .idcode s = .next { s with reply := [0x0102456B], dbg := { d with tapIr := 2 } } ∧
    (∀ x : BypassScan, x.code ≠ 0 → x.code ≠ 1 → x.code ≠ 2 → x.code ≠ 8 → exec (.bypass x) s =
      .next { s with reply := [0], dbg := { d with tapIr := x.code, bypass := x.bit } }) ∧
    (∀ v, ∃ t pins, exec (.samplePreload v) s = .next t ∧ t.reply = [pins] ∧
      t.dbg = { d with tapIr := 1, bscan := v } ∧ same t) ∧
    (∀ v, d.session = none → exec (.extest v) s =
      .next { s with reply := [0], dbg := { d with tapIr := 0, bypass := v.getLsbD 255 } }) ∧
    (∀ v l p, d.session = some (l, p) → l ≠ 0 → l ≠ 3 → exec (.extest v) s =
      .next { setFlag s Reg.dbgStat 7 with reply := [0], dbg := { d with tapIr := 0, bypass := v.getLsbD 255 } }) ∧
    (∀ v p, d.session = some (3, p) → ∃ t pins, exec (.extest v) s = .next t ∧ t.reply = [pins] ∧
      t.dbg = { d with tapIr := 0, bscan := v } ∧ same t) ∧
    (∀ dr : BitVec 48, let off := 0x508000 + 4 * (dr.toNat / 2 ^ 32 % 2 ^ 13)
      ∃ t, exec (.dbgaccUpdate dr) s = .next t ∧ t.dbg.tapIr = 8 ∧
        t.reply = [d.capStat.toNat * 2 ^ 32 + d.capData.toNat] ∧
        (Reg.dbgAuthStat < off → (∀ l, d.session ≠ some (l, .jtag)) → t.dbg.capStat = 2 ∧ t.regs = s.regs ∧
          t.mem = s.mem ∧
          (dr.getLsbD 47 = false → t.dbg.capData = 0)) ∧
        (∀ l : BitVec 2, d.session = some (l, .jtag) → 0 < l.toNat → off = Reg.dbgMaddrLo →
          (dr.getLsbD 47 = false → t.dbg.capStat = 0 ∧ t.dbg.capData = reg s off ∧ t.regs = s.regs) ∧
          (dr.getLsbD 47 = true → s.wdn.held = false → t.dbg.capStat = 0 ∧ reg t off = dr.truncate 32)))

/-- R553, R558, R560, R561, R564 to R569: without a session a request does nothing, above its level it is denied;
HALTREQ, RESUME and STEP run the Pilots; registers and memory are read and written; HALT, STEP, RESUME and SPILL act
on the Helm; the gangway carries a word each way, and an emptying of one of its registers comes ahead of a filling of the
same NCLK, here the same nanosecond (log 173). That a STEP or RESUME which a hold refuses reads NOTHALTED is the
model's choice (log entry 161). -/
def Obligations.DebuggerControlsTheModule : Prop :=
  ∀ (s : State) (path : DbgPath) (l : BitVec 2), s.hx1 = true →
    (∀ c need, (c, need) ∈ [(exec (.haltreq path) s, 2), (exec (.dbgResume path) s, 2), (exec (.dbgStep path) s, 2),
        (exec (.dbgRegdataAccess path none) s, 1), (exec (.dbgRegdataAccess path (some 0)) s, 2),
        (exec (.dbgMdataWrite path 0 0) s, 2), (exec (.dbgMctlRead path 0) s, 1), (exec (.helmHalt path) s, 2),
        (exec (.helmStep path) s, 2), (exec (.helmResume path) s, 2), (exec (.spill path) s, 2),
        (exec (.gwRxWrite path 0) s, 1), (exec (.gwTxEmpty path) s, 1)] →
      ((∀ k, s.dbg.session ≠ some (k, path)) → c = .next s) ∧
      (s.dbg.session = some (1, path) → need = 2 → c = .next (setFlag s Reg.dbgStat 7))) ∧
    (s.dbg.session = some (l, path) → 2 ≤ l.toNat → s.wdn.held = false →
      (s.plt.frozen = true → exec (.haltreq path) s = .next s ∧ exec (.dbgResume path) s = .next s ∧
        exec (.dbgStep path) s = .next s) ∧
      (s.plt.frozen = false → s.plt.halted = false → ∃ t, exec (.haltreq path) s = .next t ∧ t.plt.halted = true ∧
        t.plt.resv = none ∧ t.dbg.cause = 1 ∧ t.mem = s.mem ∧
        (takeDue s true = none → t.plt.pc = s.plt.pc) ∧
        (∀ u, pilotsLive s = true → takeDue s true = some u → t.plt.pc = u.plt.pc)) ∧
      (s.plt.frozen = false → s.plt.halted = true → ∃ t, exec (.dbgResume path) s = .next t ∧ t.plt.halted = false ∧
        t.plt.gpr = s.plt.gpr ∧ t.plt.wdogCnt = (reg s Reg.pltWdogReload).toNat ∧
        t.plt.pc = (if s.dbg.onBrk = true then s.plt.pc + 4 else s.plt.pc)) ∧
      (∀ e ∈ aluRows, ∀ u w, s.plt.frozen = false → s.plt.halted = true → s.plt.idle = false → s.plt.flights = [] →
        firstLine (resumePilots s) = none → Executes (resumePilots s) u w e.code →
        ∃ t, exec (.dbgStep path) s = .next t ∧ t.plt.halted = true ∧ t.dbg.cause = 2 ∧ t.plt.pc = u.plt.pc + 4 ∧
          ∀ r, r ≠ 0 → gprAt t r = if r = rd w then e.value w (gprAt u (ra w)) (gprAt u (rb w)) else gprAt u r) ∧
      (let n := bits (reg s Reg.dbgRegsel) 6 0;
        (s.plt.halted = true → n < 32 → exec (.dbgRegdataAccess path none) s =
          .next { s with reply := [(gprAt s (BitVec.ofNat 5 n)).toNat] }) ∧
        (s.plt.halted = true → 64 ≤ n → exec (.dbgRegdataAccess path none) s = .next { s with reply := [s.plt.pc.toNat] }) ∧
        (∀ v, s.plt.halted = true → n < 32 → exec (.dbgRegdataAccess path (some v)) s =
          .next (setGpr s (BitVec.ofNat 5 n) v)) ∧
        (∀ v, s.plt.halted = true → 64 ≤ n → ∃ t, exec (.dbgRegdataAccess path (some v)) s = .next t ∧ t.plt.pc = v ∧
          t.plt.gpr = s.plt.gpr) ∧
        (∀ v, s.plt.halted = false → exec (.dbgRegdataAccess path (some v)) s = .next (setFlag s Reg.dbgStat 6)) ∧
        (s.plt.halted = false → exec (.dbgRegdataAccess path none) s =
          .next { setFlag s Reg.dbgStat 6 with reply := [0] })) ∧
      (∀ v c, let u := setReg s Reg.dbgMdata v
        let n := 2 ^ bits (reg s Reg.dbgMctl) 1 0
        let a := (reg s Reg.dbgMaddrLo).toNat + bits (reg s Reg.dbgMaddrHi) 7 0 * 2 ^ 32
        (getFlag s Reg.dbgMctl 4 = false → (∀ off, place a ≠ .regs off) →
          let x := nocWrite u 15 a (bytesOf v.toNat n) [c]
          exec (.dbgMdataWrite path v c) s = .next { x.1 with dbg := { x.1.dbg with resp := BitVec.ofNat 4 x.2.code } }) ∧
        (getFlag s Reg.dbgMctl 4 = true → s.plt.halted = false →
          exec (.dbgMdataWrite path v c) s = .next (setFlag u Reg.dbgStat 6))) ∧
      (s.helm.dbgHalt = false → s.helm.run = none → ∃ t, exec (.helmHalt path) s = .next t ∧ t.dbg.hlmCode = 0 ∧
        t.helm = { s.helm with dbgHalt := true, dbgReq := false }) ∧
      (s.helm.dbgHalt = false → s.helm.run ≠ none → ∃ t, exec (.helmHalt path) s = .next t ∧ t.dbg.hlmCode = 0 ∧
        t.helm = { s.helm with dbgReq := true }) ∧
      (helmHalted s = false ∨ s.helm.held = true →
        ∃ t, exec (.helmStep path) s = .next t ∧ t.dbg.hlmCode = 1 ∧ t.helm = s.helm) ∧
      (helmHalted s = false → ∃ t, exec (.spill path) s = .next t ∧ t.dbg.hlmCode = 1 ∧ t.arr = s.arr) ∧
      (∀ k m, helmHalted s = true → s.helm.held = false → m.spec = 0 ∨ 6 < m.spec →
        let u : State := { s with helm := { s.helm with dbgStep := true, landing := false }, dbg := { s.dbg with hlmCode := 0 } }
        Issues u k m → ∃ t j, exec (.helmStep path) s = .next t ∧ exec .microwordIssue u = .next t ∧
          t.helm.run = some j ∧ j.upc = k.next) ∧
      (s.helm.dbgHalt = false ∨ s.helm.held = true →
        ∃ t, exec (.helmResume path) s = .next t ∧ t.dbg.hlmCode = 1 ∧ t.helm = s.helm) ∧
      (s.helm.dbgHalt = true → s.helm.held = false → ∃ t, exec (.helmResume path) s = .next t ∧ t.dbg.hlmCode = 0 ∧
        t.helm = { s.helm with dbgHalt := false, dbgReq := false, dbgStep := false }) ∧
      (helmHalted s = true → s.helm.preempted ≠ none → ∃ t, exec (.spill path) s = .next t ∧ t.dbg.hlmCode = 2 ∧
        t.arr = s.arr) ∧
      (helmHalted s = true → s.helm.preempted = none → ∃ t, exec (.spill path) s = .next t ∧ t.dbg.hlmCode = 0 ∧
        t.arr.c = s.arr.c ∧ t.arr.d = s.arr.d ∧ t.arr.x = s.arr.x ∧ t.arr.m = s.arr.m ∧ t.arr.q = s.arr.q ∧
        (∀ p, p < 4080 ∨ 4084 < p → planeBits t p = planeBits s p) ∧
        ∀ p x, (p, x) ∈ [(4080, s.arr.c), (4081, s.arr.d), (4082, s.arr.x), (4083, s.arr.m), (4084, s.arr.q)] →
          planeBits t p &&& livePes s = x &&& livePes s)) ∧
    (∀ v, s.dbg.session = some (l, path) → 1 ≤ l.toNat →
      let n := 2 ^ bits v 1 0
      let u := setReg s Reg.dbgMctl ((reg s Reg.dbgMctl &&& ~~~0x13) ||| (v &&& 0x13))
      let a := (reg s Reg.dbgMaddrLo).toNat + bits (reg s Reg.dbgMaddrHi) 7 0 * 2 ^ 32
      bits v 1 0 ≠ 3 → v.getLsbD 4 = false → (∀ off, place a ≠ .regs off) →
      let x := nocRead u 15 a n
      ∃ t, exec (.dbgMctlRead path v) s = .next t ∧ t.mem = x.1.mem ∧ t.dbg.resp = BitVec.ofNat 4 x.2.1.code ∧
        reg t Reg.dbgMdata = BitVec.ofNat 32 (numOf x.2.2)) ∧
    (∀ v, s.dbg.session = some (l, path) → 1 ≤ l.toNat → s.wdn.held = false →
      (s.dbg.gwRxFull = false → exec (.gwRxWrite path v) s = .next { s with dbg := { s.dbg with gwRx := v, gwRxFull := true } }) ∧
      (s.dbg.gwRxFull = true → exec (.gwRxWrite path v) s = .next { setFlag s Reg.gwStat 4 with
        dbg := { s.dbg with gwRxLost := some { came := s.now, word := v, ovf := getFlag s Reg.gwStat 4 } } }) ∧
      ((∀ x, s.dbg.gwTxLost = some x → x.came ≠ s.now) →
        exec (.gwTxEmpty path) s = .next { s with dbg := { s.dbg with gwTxFull := false } }) ∧
      (∀ x, s.dbg.gwTxLost = some x → x.came = s.now → ∃ t, exec (.gwTxEmpty path) s = .next t ∧
        t.dbg = { s.dbg with gwTx := x.word, gwTxLost := none } ∧ getFlag t Reg.gwStat 3 = x.ovf)) ∧
    (∀ v, pilotsRun s = true → 1 ≤ s.plt.pl.toNat →
      (reachesUnit s .pilot Reg.gwRx = true → (∀ x, s.dbg.gwRxLost = some x → x.came ≠ s.now) → exec .gwRxRead s =
        .next { s with reply := [s.dbg.gwRx.toNat], dbg := { s.dbg with gwRxFull := false } }) ∧
      (reachesUnit s .pilot Reg.gwRx = true → ∀ x, s.dbg.gwRxLost = some x → x.came = s.now → ∃ t, exec .gwRxRead s =
        .next t ∧ t.reply = [s.dbg.gwRx.toNat] ∧ t.dbg = { s.dbg with gwRx := x.word, gwRxLost := none } ∧
        getFlag t Reg.gwStat 4 = x.ovf) ∧
      (reachesUnit s .pilot Reg.gwTx = true → s.dbg.gwTxFull = false →
        exec (.gwTxWrite v) s = .next { s with dbg := { s.dbg with gwTx := v, gwTxFull := true } }) ∧
      (reachesUnit s .pilot Reg.gwTx = true → s.dbg.gwTxFull = true →
        exec (.gwTxWrite v) s = .next { setFlag s Reg.gwStat 3 with
          dbg := { s.dbg with gwTxLost := some { came := s.now, word := v, ovf := getFlag s Reg.gwStat 3 } } }))

/-! ## The machine as a whole -/

/-- The step of the block: with command c at the front of its queue, the machine runs exec on c over the queue's rest. -/
def Obligations.StepRunsFrontCommand : Prop :=
  ∀ (s : State) (c : Instr) (l : List Instr), s.pending = c :: l → step s = exec c { s with pending := l }

/-- On an empty queue time passes, which is the model's choice (log entry 2): the clock advances by 1 ns, and CYCLO by one
PCLK while the HX1 is powered and the Pilots are not halted (R309); FCLK passes in the regions; a changed tag area of
the Warden begins its way to flash where no such write runs (log entry 205, the model's choice); nothing else changes. -/
def Obligations.EmptyQueueAdvancesClock : Prop :=
  ∀ (s : State), s.pending = [] → ∃ t, step s = .next t ∧
    t = { s with
      now := s.now + 1
      plt := { s.plt with cyc := if s.hx1 = true ∧ s.plt.halted = false then s.plt.cyc + 1 else s.plt.cyc }
      wdn := { s.wdn with
        tagBusy := if s.mode ≠ .off ∧ s.wdn.tagDirty = true ∧
          s.wdn.tagBusy = none then some s.wdn.tags else s.wdn.tagBusy }
      fab := t.fab } ∧
    ((∀ r, r < 8 → (regionOf s r).phase ≠ .running) → s.fab.switching = [] → t.fab = s.fab)

/-- Every command answers a next state in every state, and leaves the queue of commands as it stands. -/
def Obligations.EveryCommandAnswersANextState : Prop :=
  ∀ (c : Instr) (s : State), ∃ t, exec c s = .next t ∧ t.pending = s.pending

/-- R2, R408: the state right after reset meets the invariant that every step keeps. -/
def Obligations.ResetMeetsInvariant : Prop := Invariant State.reset

/-- R2: at every step, whatever the command: HEALTHY is high only in RUN or DEGRADED, and low while the Warden holds
the module or has lowered it until LOAD; the HX1 is without power in OFF and in STANDBY, and memory keeps its
canonical form. -/
def Obligations.EveryStepKeepsInvariant : Prop :=
  ∀ (s t : State), Invariant s → step s = .next t → Invariant t
end

