-- ==== Sys2Proof/Laws/State.lean ====
section
/-!
SUPPORT. What each update of the state leaves in each of its fields: one lemma per field per update.
-/
set_option autoImplicit false
namespace Sys2Proof.Machine

/-! ## A change of ArrayState -/

@[simp] theorem updArr_mode (s : State) (f : ArrayState → ArrayState) : (updArr s f).mode = s.mode := rfl
@[simp] theorem updArr_hx1 (s : State) (f : ArrayState → ArrayState) : (updArr s f).hx1 = s.hx1 := rfl
@[simp] theorem updArr_now (s : State) (f : ArrayState → ArrayState) : (updArr s f).now = s.now := rfl
@[simp] theorem updArr_free (s : State) (f : ArrayState → ArrayState) : (updArr s f).free = s.free := rfl
@[simp] theorem updArr_reply (s : State) (f : ArrayState → ArrayState) : (updArr s f).reply = s.reply := rfl
@[simp] theorem updArr_out (s : State) (f : ArrayState → ArrayState) : (updArr s f).out = s.out := rfl
@[simp] theorem updArr_pending (s : State) (f : ArrayState → ArrayState) : (updArr s f).pending = s.pending := rfl
@[simp] theorem updArr_regs (s : State) (f : ArrayState → ArrayState) : (updArr s f).regs = s.regs := rfl
@[simp] theorem updArr_arr (s : State) (f : ArrayState → ArrayState) : (updArr s f).arr = f s.arr := rfl
@[simp] theorem updArr_helm (s : State) (f : ArrayState → ArrayState) : (updArr s f).helm = s.helm := rfl
@[simp] theorem updArr_ldr (s : State) (f : ArrayState → ArrayState) : (updArr s f).ldr = s.ldr := rfl
@[simp] theorem updArr_ttb (s : State) (f : ArrayState → ArrayState) : (updArr s f).ttb = s.ttb := rfl
@[simp] theorem updArr_flt (s : State) (f : ArrayState → ArrayState) : (updArr s f).flt = s.flt := rfl
@[simp] theorem updArr_que (s : State) (f : ArrayState → ArrayState) : (updArr s f).que = s.que := rfl
@[simp] theorem updArr_mem (s : State) (f : ArrayState → ArrayState) : (updArr s f).mem = s.mem := rfl
@[simp] theorem updArr_plt (s : State) (f : ArrayState → ArrayState) : (updArr s f).plt = s.plt := rfl
@[simp] theorem updArr_fry (s : State) (f : ArrayState → ArrayState) : (updArr s f).fry = s.fry := rfl
@[simp] theorem updArr_fab (s : State) (f : ArrayState → ArrayState) : (updArr s f).fab = s.fab := rfl
@[simp] theorem updArr_wdn (s : State) (f : ArrayState → ArrayState) : (updArr s f).wdn = s.wdn := rfl
@[simp] theorem updArr_dbg (s : State) (f : ArrayState → ArrayState) : (updArr s f).dbg = s.dbg := rfl

/-! ## A change of HelmState -/

@[simp] theorem updHelm_mode (s : State) (f : HelmState → HelmState) : (updHelm s f).mode = s.mode := rfl
@[simp] theorem updHelm_hx1 (s : State) (f : HelmState → HelmState) : (updHelm s f).hx1 = s.hx1 := rfl
@[simp] theorem updHelm_now (s : State) (f : HelmState → HelmState) : (updHelm s f).now = s.now := rfl
@[simp] theorem updHelm_free (s : State) (f : HelmState → HelmState) : (updHelm s f).free = s.free := rfl
@[simp] theorem updHelm_reply (s : State) (f : HelmState → HelmState) : (updHelm s f).reply = s.reply := rfl
@[simp] theorem updHelm_out (s : State) (f : HelmState → HelmState) : (updHelm s f).out = s.out := rfl
@[simp] theorem updHelm_pending (s : State) (f : HelmState → HelmState) : (updHelm s f).pending = s.pending := rfl
@[simp] theorem updHelm_regs (s : State) (f : HelmState → HelmState) : (updHelm s f).regs = s.regs := rfl
@[simp] theorem updHelm_arr (s : State) (f : HelmState → HelmState) : (updHelm s f).arr = s.arr := rfl
@[simp] theorem updHelm_helm (s : State) (f : HelmState → HelmState) : (updHelm s f).helm = f s.helm := rfl
@[simp] theorem updHelm_ldr (s : State) (f : HelmState → HelmState) : (updHelm s f).ldr = s.ldr := rfl
@[simp] theorem updHelm_ttb (s : State) (f : HelmState → HelmState) : (updHelm s f).ttb = s.ttb := rfl
@[simp] theorem updHelm_flt (s : State) (f : HelmState → HelmState) : (updHelm s f).flt = s.flt := rfl
@[simp] theorem updHelm_que (s : State) (f : HelmState → HelmState) : (updHelm s f).que = s.que := rfl
@[simp] theorem updHelm_mem (s : State) (f : HelmState → HelmState) : (updHelm s f).mem = s.mem := rfl
@[simp] theorem updHelm_plt (s : State) (f : HelmState → HelmState) : (updHelm s f).plt = s.plt := rfl
@[simp] theorem updHelm_fry (s : State) (f : HelmState → HelmState) : (updHelm s f).fry = s.fry := rfl
@[simp] theorem updHelm_fab (s : State) (f : HelmState → HelmState) : (updHelm s f).fab = s.fab := rfl
@[simp] theorem updHelm_wdn (s : State) (f : HelmState → HelmState) : (updHelm s f).wdn = s.wdn := rfl
@[simp] theorem updHelm_dbg (s : State) (f : HelmState → HelmState) : (updHelm s f).dbg = s.dbg := rfl

/-! ## A change of LdrState -/

@[simp] theorem updLdr_mode (s : State) (f : LdrState → LdrState) : (updLdr s f).mode = s.mode := rfl
@[simp] theorem updLdr_hx1 (s : State) (f : LdrState → LdrState) : (updLdr s f).hx1 = s.hx1 := rfl
@[simp] theorem updLdr_now (s : State) (f : LdrState → LdrState) : (updLdr s f).now = s.now := rfl
@[simp] theorem updLdr_free (s : State) (f : LdrState → LdrState) : (updLdr s f).free = s.free := rfl
@[simp] theorem updLdr_reply (s : State) (f : LdrState → LdrState) : (updLdr s f).reply = s.reply := rfl
@[simp] theorem updLdr_out (s : State) (f : LdrState → LdrState) : (updLdr s f).out = s.out := rfl
@[simp] theorem updLdr_pending (s : State) (f : LdrState → LdrState) : (updLdr s f).pending = s.pending := rfl
@[simp] theorem updLdr_regs (s : State) (f : LdrState → LdrState) : (updLdr s f).regs = s.regs := rfl
@[simp] theorem updLdr_arr (s : State) (f : LdrState → LdrState) : (updLdr s f).arr = s.arr := rfl
@[simp] theorem updLdr_helm (s : State) (f : LdrState → LdrState) : (updLdr s f).helm = s.helm := rfl
@[simp] theorem updLdr_ldr (s : State) (f : LdrState → LdrState) : (updLdr s f).ldr = f s.ldr := rfl
@[simp] theorem updLdr_ttb (s : State) (f : LdrState → LdrState) : (updLdr s f).ttb = s.ttb := rfl
@[simp] theorem updLdr_flt (s : State) (f : LdrState → LdrState) : (updLdr s f).flt = s.flt := rfl
@[simp] theorem updLdr_que (s : State) (f : LdrState → LdrState) : (updLdr s f).que = s.que := rfl
@[simp] theorem updLdr_mem (s : State) (f : LdrState → LdrState) : (updLdr s f).mem = s.mem := rfl
@[simp] theorem updLdr_plt (s : State) (f : LdrState → LdrState) : (updLdr s f).plt = s.plt := rfl
@[simp] theorem updLdr_fry (s : State) (f : LdrState → LdrState) : (updLdr s f).fry = s.fry := rfl
@[simp] theorem updLdr_fab (s : State) (f : LdrState → LdrState) : (updLdr s f).fab = s.fab := rfl
@[simp] theorem updLdr_wdn (s : State) (f : LdrState → LdrState) : (updLdr s f).wdn = s.wdn := rfl
@[simp] theorem updLdr_dbg (s : State) (f : LdrState → LdrState) : (updLdr s f).dbg = s.dbg := rfl

/-! ## A change of TtbState -/

@[simp] theorem updTtb_mode (s : State) (f : TtbState → TtbState) : (updTtb s f).mode = s.mode := rfl
@[simp] theorem updTtb_hx1 (s : State) (f : TtbState → TtbState) : (updTtb s f).hx1 = s.hx1 := rfl
@[simp] theorem updTtb_now (s : State) (f : TtbState → TtbState) : (updTtb s f).now = s.now := rfl
@[simp] theorem updTtb_free (s : State) (f : TtbState → TtbState) : (updTtb s f).free = s.free := rfl
@[simp] theorem updTtb_reply (s : State) (f : TtbState → TtbState) : (updTtb s f).reply = s.reply := rfl
@[simp] theorem updTtb_out (s : State) (f : TtbState → TtbState) : (updTtb s f).out = s.out := rfl
@[simp] theorem updTtb_pending (s : State) (f : TtbState → TtbState) : (updTtb s f).pending = s.pending := rfl
@[simp] theorem updTtb_regs (s : State) (f : TtbState → TtbState) : (updTtb s f).regs = s.regs := rfl
@[simp] theorem updTtb_arr (s : State) (f : TtbState → TtbState) : (updTtb s f).arr = s.arr := rfl
@[simp] theorem updTtb_helm (s : State) (f : TtbState → TtbState) : (updTtb s f).helm = s.helm := rfl
@[simp] theorem updTtb_ldr (s : State) (f : TtbState → TtbState) : (updTtb s f).ldr = s.ldr := rfl
@[simp] theorem updTtb_ttb (s : State) (f : TtbState → TtbState) : (updTtb s f).ttb = f s.ttb := rfl
@[simp] theorem updTtb_flt (s : State) (f : TtbState → TtbState) : (updTtb s f).flt = s.flt := rfl
@[simp] theorem updTtb_que (s : State) (f : TtbState → TtbState) : (updTtb s f).que = s.que := rfl
@[simp] theorem updTtb_mem (s : State) (f : TtbState → TtbState) : (updTtb s f).mem = s.mem := rfl
@[simp] theorem updTtb_plt (s : State) (f : TtbState → TtbState) : (updTtb s f).plt = s.plt := rfl
@[simp] theorem updTtb_fry (s : State) (f : TtbState → TtbState) : (updTtb s f).fry = s.fry := rfl
@[simp] theorem updTtb_fab (s : State) (f : TtbState → TtbState) : (updTtb s f).fab = s.fab := rfl
@[simp] theorem updTtb_wdn (s : State) (f : TtbState → TtbState) : (updTtb s f).wdn = s.wdn := rfl
@[simp] theorem updTtb_dbg (s : State) (f : TtbState → TtbState) : (updTtb s f).dbg = s.dbg := rfl

/-! ## A change of FltState -/

@[simp] theorem updFlt_mode (s : State) (f : FltState → FltState) : (updFlt s f).mode = s.mode := rfl
@[simp] theorem updFlt_hx1 (s : State) (f : FltState → FltState) : (updFlt s f).hx1 = s.hx1 := rfl
@[simp] theorem updFlt_now (s : State) (f : FltState → FltState) : (updFlt s f).now = s.now := rfl
@[simp] theorem updFlt_free (s : State) (f : FltState → FltState) : (updFlt s f).free = s.free := rfl
@[simp] theorem updFlt_reply (s : State) (f : FltState → FltState) : (updFlt s f).reply = s.reply := rfl
@[simp] theorem updFlt_out (s : State) (f : FltState → FltState) : (updFlt s f).out = s.out := rfl
@[simp] theorem updFlt_pending (s : State) (f : FltState → FltState) : (updFlt s f).pending = s.pending := rfl
@[simp] theorem updFlt_regs (s : State) (f : FltState → FltState) : (updFlt s f).regs = s.regs := rfl
@[simp] theorem updFlt_arr (s : State) (f : FltState → FltState) : (updFlt s f).arr = s.arr := rfl
@[simp] theorem updFlt_helm (s : State) (f : FltState → FltState) : (updFlt s f).helm = s.helm := rfl
@[simp] theorem updFlt_ldr (s : State) (f : FltState → FltState) : (updFlt s f).ldr = s.ldr := rfl
@[simp] theorem updFlt_ttb (s : State) (f : FltState → FltState) : (updFlt s f).ttb = s.ttb := rfl
@[simp] theorem updFlt_flt (s : State) (f : FltState → FltState) : (updFlt s f).flt = f s.flt := rfl
@[simp] theorem updFlt_que (s : State) (f : FltState → FltState) : (updFlt s f).que = s.que := rfl
@[simp] theorem updFlt_mem (s : State) (f : FltState → FltState) : (updFlt s f).mem = s.mem := rfl
@[simp] theorem updFlt_plt (s : State) (f : FltState → FltState) : (updFlt s f).plt = s.plt := rfl
@[simp] theorem updFlt_fry (s : State) (f : FltState → FltState) : (updFlt s f).fry = s.fry := rfl
@[simp] theorem updFlt_fab (s : State) (f : FltState → FltState) : (updFlt s f).fab = s.fab := rfl
@[simp] theorem updFlt_wdn (s : State) (f : FltState → FltState) : (updFlt s f).wdn = s.wdn := rfl
@[simp] theorem updFlt_dbg (s : State) (f : FltState → FltState) : (updFlt s f).dbg = s.dbg := rfl

/-! ## A change of QueState -/

@[simp] theorem updQue_mode (s : State) (f : QueState → QueState) : (updQue s f).mode = s.mode := rfl
@[simp] theorem updQue_hx1 (s : State) (f : QueState → QueState) : (updQue s f).hx1 = s.hx1 := rfl
@[simp] theorem updQue_now (s : State) (f : QueState → QueState) : (updQue s f).now = s.now := rfl
@[simp] theorem updQue_free (s : State) (f : QueState → QueState) : (updQue s f).free = s.free := rfl
@[simp] theorem updQue_reply (s : State) (f : QueState → QueState) : (updQue s f).reply = s.reply := rfl
@[simp] theorem updQue_out (s : State) (f : QueState → QueState) : (updQue s f).out = s.out := rfl
@[simp] theorem updQue_pending (s : State) (f : QueState → QueState) : (updQue s f).pending = s.pending := rfl
@[simp] theorem updQue_regs (s : State) (f : QueState → QueState) : (updQue s f).regs = s.regs := rfl
@[simp] theorem updQue_arr (s : State) (f : QueState → QueState) : (updQue s f).arr = s.arr := rfl
@[simp] theorem updQue_helm (s : State) (f : QueState → QueState) : (updQue s f).helm = s.helm := rfl
@[simp] theorem updQue_ldr (s : State) (f : QueState → QueState) : (updQue s f).ldr = s.ldr := rfl
@[simp] theorem updQue_ttb (s : State) (f : QueState → QueState) : (updQue s f).ttb = s.ttb := rfl
@[simp] theorem updQue_flt (s : State) (f : QueState → QueState) : (updQue s f).flt = s.flt := rfl
@[simp] theorem updQue_que (s : State) (f : QueState → QueState) : (updQue s f).que = f s.que := rfl
@[simp] theorem updQue_mem (s : State) (f : QueState → QueState) : (updQue s f).mem = s.mem := rfl
@[simp] theorem updQue_plt (s : State) (f : QueState → QueState) : (updQue s f).plt = s.plt := rfl
@[simp] theorem updQue_fry (s : State) (f : QueState → QueState) : (updQue s f).fry = s.fry := rfl
@[simp] theorem updQue_fab (s : State) (f : QueState → QueState) : (updQue s f).fab = s.fab := rfl
@[simp] theorem updQue_wdn (s : State) (f : QueState → QueState) : (updQue s f).wdn = s.wdn := rfl
@[simp] theorem updQue_dbg (s : State) (f : QueState → QueState) : (updQue s f).dbg = s.dbg := rfl

/-! ## A change of PilotState -/

@[simp] theorem updPlt_mode (s : State) (f : PilotState → PilotState) : (updPlt s f).mode = s.mode := rfl
@[simp] theorem updPlt_hx1 (s : State) (f : PilotState → PilotState) : (updPlt s f).hx1 = s.hx1 := rfl
@[simp] theorem updPlt_now (s : State) (f : PilotState → PilotState) : (updPlt s f).now = s.now := rfl
@[simp] theorem updPlt_free (s : State) (f : PilotState → PilotState) : (updPlt s f).free = s.free := rfl
@[simp] theorem updPlt_reply (s : State) (f : PilotState → PilotState) : (updPlt s f).reply = s.reply := rfl
@[simp] theorem updPlt_out (s : State) (f : PilotState → PilotState) : (updPlt s f).out = s.out := rfl
@[simp] theorem updPlt_pending (s : State) (f : PilotState → PilotState) : (updPlt s f).pending = s.pending := rfl
@[simp] theorem updPlt_regs (s : State) (f : PilotState → PilotState) : (updPlt s f).regs = s.regs := rfl
@[simp] theorem updPlt_arr (s : State) (f : PilotState → PilotState) : (updPlt s f).arr = s.arr := rfl
@[simp] theorem updPlt_helm (s : State) (f : PilotState → PilotState) : (updPlt s f).helm = s.helm := rfl
@[simp] theorem updPlt_ldr (s : State) (f : PilotState → PilotState) : (updPlt s f).ldr = s.ldr := rfl
@[simp] theorem updPlt_ttb (s : State) (f : PilotState → PilotState) : (updPlt s f).ttb = s.ttb := rfl
@[simp] theorem updPlt_flt (s : State) (f : PilotState → PilotState) : (updPlt s f).flt = s.flt := rfl
@[simp] theorem updPlt_que (s : State) (f : PilotState → PilotState) : (updPlt s f).que = s.que := rfl
@[simp] theorem updPlt_mem (s : State) (f : PilotState → PilotState) : (updPlt s f).mem = s.mem := rfl
@[simp] theorem updPlt_plt (s : State) (f : PilotState → PilotState) : (updPlt s f).plt = f s.plt := rfl
@[simp] theorem updPlt_fry (s : State) (f : PilotState → PilotState) : (updPlt s f).fry = s.fry := rfl
@[simp] theorem updPlt_fab (s : State) (f : PilotState → PilotState) : (updPlt s f).fab = s.fab := rfl
@[simp] theorem updPlt_wdn (s : State) (f : PilotState → PilotState) : (updPlt s f).wdn = s.wdn := rfl
@[simp] theorem updPlt_dbg (s : State) (f : PilotState → PilotState) : (updPlt s f).dbg = s.dbg := rfl

/-! ## A change of FryState -/

@[simp] theorem updFry_mode (s : State) (f : FryState → FryState) : (updFry s f).mode = s.mode := rfl
@[simp] theorem updFry_hx1 (s : State) (f : FryState → FryState) : (updFry s f).hx1 = s.hx1 := rfl
@[simp] theorem updFry_now (s : State) (f : FryState → FryState) : (updFry s f).now = s.now := rfl
@[simp] theorem updFry_free (s : State) (f : FryState → FryState) : (updFry s f).free = s.free := rfl
@[simp] theorem updFry_reply (s : State) (f : FryState → FryState) : (updFry s f).reply = s.reply := rfl
@[simp] theorem updFry_out (s : State) (f : FryState → FryState) : (updFry s f).out = s.out := rfl
@[simp] theorem updFry_pending (s : State) (f : FryState → FryState) : (updFry s f).pending = s.pending := rfl
@[simp] theorem updFry_regs (s : State) (f : FryState → FryState) : (updFry s f).regs = s.regs := rfl
@[simp] theorem updFry_arr (s : State) (f : FryState → FryState) : (updFry s f).arr = s.arr := rfl
@[simp] theorem updFry_helm (s : State) (f : FryState → FryState) : (updFry s f).helm = s.helm := rfl
@[simp] theorem updFry_ldr (s : State) (f : FryState → FryState) : (updFry s f).ldr = s.ldr := rfl
@[simp] theorem updFry_ttb (s : State) (f : FryState → FryState) : (updFry s f).ttb = s.ttb := rfl
@[simp] theorem updFry_flt (s : State) (f : FryState → FryState) : (updFry s f).flt = s.flt := rfl
@[simp] theorem updFry_que (s : State) (f : FryState → FryState) : (updFry s f).que = s.que := rfl
@[simp] theorem updFry_mem (s : State) (f : FryState → FryState) : (updFry s f).mem = s.mem := rfl
@[simp] theorem updFry_plt (s : State) (f : FryState → FryState) : (updFry s f).plt = s.plt := rfl
@[simp] theorem updFry_fry (s : State) (f : FryState → FryState) : (updFry s f).fry = f s.fry := rfl
@[simp] theorem updFry_fab (s : State) (f : FryState → FryState) : (updFry s f).fab = s.fab := rfl
@[simp] theorem updFry_wdn (s : State) (f : FryState → FryState) : (updFry s f).wdn = s.wdn := rfl
@[simp] theorem updFry_dbg (s : State) (f : FryState → FryState) : (updFry s f).dbg = s.dbg := rfl

/-! ## A change of FabState -/

@[simp] theorem updFab_mode (s : State) (f : FabState → FabState) : (updFab s f).mode = s.mode := rfl
@[simp] theorem updFab_hx1 (s : State) (f : FabState → FabState) : (updFab s f).hx1 = s.hx1 := rfl
@[simp] theorem updFab_now (s : State) (f : FabState → FabState) : (updFab s f).now = s.now := rfl
@[simp] theorem updFab_free (s : State) (f : FabState → FabState) : (updFab s f).free = s.free := rfl
@[simp] theorem updFab_reply (s : State) (f : FabState → FabState) : (updFab s f).reply = s.reply := rfl
@[simp] theorem updFab_out (s : State) (f : FabState → FabState) : (updFab s f).out = s.out := rfl
@[simp] theorem updFab_pending (s : State) (f : FabState → FabState) : (updFab s f).pending = s.pending := rfl
@[simp] theorem updFab_regs (s : State) (f : FabState → FabState) : (updFab s f).regs = s.regs := rfl
@[simp] theorem updFab_arr (s : State) (f : FabState → FabState) : (updFab s f).arr = s.arr := rfl
@[simp] theorem updFab_helm (s : State) (f : FabState → FabState) : (updFab s f).helm = s.helm := rfl
@[simp] theorem updFab_ldr (s : State) (f : FabState → FabState) : (updFab s f).ldr = s.ldr := rfl
@[simp] theorem updFab_ttb (s : State) (f : FabState → FabState) : (updFab s f).ttb = s.ttb := rfl
@[simp] theorem updFab_flt (s : State) (f : FabState → FabState) : (updFab s f).flt = s.flt := rfl
@[simp] theorem updFab_que (s : State) (f : FabState → FabState) : (updFab s f).que = s.que := rfl
@[simp] theorem updFab_mem (s : State) (f : FabState → FabState) : (updFab s f).mem = s.mem := rfl
@[simp] theorem updFab_plt (s : State) (f : FabState → FabState) : (updFab s f).plt = s.plt := rfl
@[simp] theorem updFab_fry (s : State) (f : FabState → FabState) : (updFab s f).fry = s.fry := rfl
@[simp] theorem updFab_fab (s : State) (f : FabState → FabState) : (updFab s f).fab = f s.fab := rfl
@[simp] theorem updFab_wdn (s : State) (f : FabState → FabState) : (updFab s f).wdn = s.wdn := rfl
@[simp] theorem updFab_dbg (s : State) (f : FabState → FabState) : (updFab s f).dbg = s.dbg := rfl

/-! ## A change of WdnState -/

@[simp] theorem updWdn_mode (s : State) (f : WdnState → WdnState) : (updWdn s f).mode = s.mode := rfl
@[simp] theorem updWdn_hx1 (s : State) (f : WdnState → WdnState) : (updWdn s f).hx1 = s.hx1 := rfl
@[simp] theorem updWdn_now (s : State) (f : WdnState → WdnState) : (updWdn s f).now = s.now := rfl
@[simp] theorem updWdn_free (s : State) (f : WdnState → WdnState) : (updWdn s f).free = s.free := rfl
@[simp] theorem updWdn_reply (s : State) (f : WdnState → WdnState) : (updWdn s f).reply = s.reply := rfl
@[simp] theorem updWdn_out (s : State) (f : WdnState → WdnState) : (updWdn s f).out = s.out := rfl
@[simp] theorem updWdn_pending (s : State) (f : WdnState → WdnState) : (updWdn s f).pending = s.pending := rfl
@[simp] theorem updWdn_regs (s : State) (f : WdnState → WdnState) : (updWdn s f).regs = s.regs := rfl
@[simp] theorem updWdn_arr (s : State) (f : WdnState → WdnState) : (updWdn s f).arr = s.arr := rfl
@[simp] theorem updWdn_helm (s : State) (f : WdnState → WdnState) : (updWdn s f).helm = s.helm := rfl
@[simp] theorem updWdn_ldr (s : State) (f : WdnState → WdnState) : (updWdn s f).ldr = s.ldr := rfl
@[simp] theorem updWdn_ttb (s : State) (f : WdnState → WdnState) : (updWdn s f).ttb = s.ttb := rfl
@[simp] theorem updWdn_flt (s : State) (f : WdnState → WdnState) : (updWdn s f).flt = s.flt := rfl
@[simp] theorem updWdn_que (s : State) (f : WdnState → WdnState) : (updWdn s f).que = s.que := rfl
@[simp] theorem updWdn_mem (s : State) (f : WdnState → WdnState) : (updWdn s f).mem = s.mem := rfl
@[simp] theorem updWdn_plt (s : State) (f : WdnState → WdnState) : (updWdn s f).plt = s.plt := rfl
@[simp] theorem updWdn_fry (s : State) (f : WdnState → WdnState) : (updWdn s f).fry = s.fry := rfl
@[simp] theorem updWdn_fab (s : State) (f : WdnState → WdnState) : (updWdn s f).fab = s.fab := rfl
@[simp] theorem updWdn_wdn (s : State) (f : WdnState → WdnState) : (updWdn s f).wdn = f s.wdn := rfl
@[simp] theorem updWdn_dbg (s : State) (f : WdnState → WdnState) : (updWdn s f).dbg = s.dbg := rfl

/-! ## A change of DbgState -/

@[simp] theorem updDbg_mode (s : State) (f : DbgState → DbgState) : (updDbg s f).mode = s.mode := rfl
@[simp] theorem updDbg_hx1 (s : State) (f : DbgState → DbgState) : (updDbg s f).hx1 = s.hx1 := rfl
@[simp] theorem updDbg_now (s : State) (f : DbgState → DbgState) : (updDbg s f).now = s.now := rfl
@[simp] theorem updDbg_free (s : State) (f : DbgState → DbgState) : (updDbg s f).free = s.free := rfl
@[simp] theorem updDbg_reply (s : State) (f : DbgState → DbgState) : (updDbg s f).reply = s.reply := rfl
@[simp] theorem updDbg_out (s : State) (f : DbgState → DbgState) : (updDbg s f).out = s.out := rfl
@[simp] theorem updDbg_pending (s : State) (f : DbgState → DbgState) : (updDbg s f).pending = s.pending := rfl
@[simp] theorem updDbg_regs (s : State) (f : DbgState → DbgState) : (updDbg s f).regs = s.regs := rfl
@[simp] theorem updDbg_arr (s : State) (f : DbgState → DbgState) : (updDbg s f).arr = s.arr := rfl
@[simp] theorem updDbg_helm (s : State) (f : DbgState → DbgState) : (updDbg s f).helm = s.helm := rfl
@[simp] theorem updDbg_ldr (s : State) (f : DbgState → DbgState) : (updDbg s f).ldr = s.ldr := rfl
@[simp] theorem updDbg_ttb (s : State) (f : DbgState → DbgState) : (updDbg s f).ttb = s.ttb := rfl
@[simp] theorem updDbg_flt (s : State) (f : DbgState → DbgState) : (updDbg s f).flt = s.flt := rfl
@[simp] theorem updDbg_que (s : State) (f : DbgState → DbgState) : (updDbg s f).que = s.que := rfl
@[simp] theorem updDbg_mem (s : State) (f : DbgState → DbgState) : (updDbg s f).mem = s.mem := rfl
@[simp] theorem updDbg_plt (s : State) (f : DbgState → DbgState) : (updDbg s f).plt = s.plt := rfl
@[simp] theorem updDbg_fry (s : State) (f : DbgState → DbgState) : (updDbg s f).fry = s.fry := rfl
@[simp] theorem updDbg_fab (s : State) (f : DbgState → DbgState) : (updDbg s f).fab = s.fab := rfl
@[simp] theorem updDbg_wdn (s : State) (f : DbgState → DbgState) : (updDbg s f).wdn = s.wdn := rfl
@[simp] theorem updDbg_dbg (s : State) (f : DbgState → DbgState) : (updDbg s f).dbg = f s.dbg := rfl

/-! ## A register stored -/

@[simp] theorem setReg_mode (s : State) (off : Nat) (v : Word) : (setReg s off v).mode = s.mode := rfl
@[simp] theorem setReg_hx1 (s : State) (off : Nat) (v : Word) : (setReg s off v).hx1 = s.hx1 := rfl
@[simp] theorem setReg_now (s : State) (off : Nat) (v : Word) : (setReg s off v).now = s.now := rfl
@[simp] theorem setReg_free (s : State) (off : Nat) (v : Word) : (setReg s off v).free = s.free := rfl
@[simp] theorem setReg_reply (s : State) (off : Nat) (v : Word) : (setReg s off v).reply = s.reply := rfl
@[simp] theorem setReg_out (s : State) (off : Nat) (v : Word) : (setReg s off v).out = s.out := rfl
@[simp] theorem setReg_pending (s : State) (off : Nat) (v : Word) : (setReg s off v).pending = s.pending := rfl
@[simp] theorem setReg_regs (s : State) (off : Nat) (v : Word) : (setReg s off v).regs =
    storePut 0 s.regs off v := rfl
@[simp] theorem setReg_arr (s : State) (off : Nat) (v : Word) : (setReg s off v).arr = s.arr := rfl
@[simp] theorem setReg_helm (s : State) (off : Nat) (v : Word) : (setReg s off v).helm = s.helm := rfl
@[simp] theorem setReg_ldr (s : State) (off : Nat) (v : Word) : (setReg s off v).ldr = s.ldr := rfl
@[simp] theorem setReg_ttb (s : State) (off : Nat) (v : Word) : (setReg s off v).ttb = s.ttb := rfl
@[simp] theorem setReg_flt (s : State) (off : Nat) (v : Word) : (setReg s off v).flt = s.flt := rfl
@[simp] theorem setReg_que (s : State) (off : Nat) (v : Word) : (setReg s off v).que = s.que := rfl
@[simp] theorem setReg_mem (s : State) (off : Nat) (v : Word) : (setReg s off v).mem = s.mem := rfl
@[simp] theorem setReg_plt (s : State) (off : Nat) (v : Word) : (setReg s off v).plt = s.plt := rfl
@[simp] theorem setReg_fry (s : State) (off : Nat) (v : Word) : (setReg s off v).fry = s.fry := rfl
@[simp] theorem setReg_fab (s : State) (off : Nat) (v : Word) : (setReg s off v).fab = s.fab := rfl
@[simp] theorem setReg_wdn (s : State) (off : Nat) (v : Word) : (setReg s off v).wdn = s.wdn := rfl
@[simp] theorem setReg_dbg (s : State) (off : Nat) (v : Word) : (setReg s off v).dbg = s.dbg := rfl

/-! ## A field of a register stored -/

@[simp] theorem setField_mode (s : State) (off hi lo v : Nat) : (setField s off hi lo v).mode = s.mode := rfl
@[simp] theorem setField_hx1 (s : State) (off hi lo v : Nat) : (setField s off hi lo v).hx1 = s.hx1 := rfl
@[simp] theorem setField_now (s : State) (off hi lo v : Nat) : (setField s off hi lo v).now = s.now := rfl
@[simp] theorem setField_free (s : State) (off hi lo v : Nat) : (setField s off hi lo v).free = s.free := rfl
@[simp] theorem setField_reply (s : State) (off hi lo v : Nat) : (setField s off hi lo v).reply = s.reply := rfl
@[simp] theorem setField_out (s : State) (off hi lo v : Nat) : (setField s off hi lo v).out = s.out := rfl
@[simp] theorem setField_pending (s : State) (off hi lo v : Nat) : (setField s off hi lo v).pending =
    s.pending := rfl
@[simp] theorem setField_regs (s : State) (off hi lo v : Nat) : (setField s off hi lo v).regs =
    storePut 0 s.regs off (setBits (reg s off) hi lo v) := rfl
@[simp] theorem setField_arr (s : State) (off hi lo v : Nat) : (setField s off hi lo v).arr = s.arr := rfl
@[simp] theorem setField_helm (s : State) (off hi lo v : Nat) : (setField s off hi lo v).helm = s.helm := rfl
@[simp] theorem setField_ldr (s : State) (off hi lo v : Nat) : (setField s off hi lo v).ldr = s.ldr := rfl
@[simp] theorem setField_ttb (s : State) (off hi lo v : Nat) : (setField s off hi lo v).ttb = s.ttb := rfl
@[simp] theorem setField_flt (s : State) (off hi lo v : Nat) : (setField s off hi lo v).flt = s.flt := rfl
@[simp] theorem setField_que (s : State) (off hi lo v : Nat) : (setField s off hi lo v).que = s.que := rfl
@[simp] theorem setField_mem (s : State) (off hi lo v : Nat) : (setField s off hi lo v).mem = s.mem := rfl
@[simp] theorem setField_plt (s : State) (off hi lo v : Nat) : (setField s off hi lo v).plt = s.plt := rfl
@[simp] theorem setField_fry (s : State) (off hi lo v : Nat) : (setField s off hi lo v).fry = s.fry := rfl
@[simp] theorem setField_fab (s : State) (off hi lo v : Nat) : (setField s off hi lo v).fab = s.fab := rfl
@[simp] theorem setField_wdn (s : State) (off hi lo v : Nat) : (setField s off hi lo v).wdn = s.wdn := rfl
@[simp] theorem setField_dbg (s : State) (off hi lo v : Nat) : (setField s off hi lo v).dbg = s.dbg := rfl

/-! ## A flag raised -/

@[simp] theorem setFlag_mode (s : State) (off i : Nat) : (setFlag s off i).mode = s.mode := rfl
@[simp] theorem setFlag_hx1 (s : State) (off i : Nat) : (setFlag s off i).hx1 = s.hx1 := rfl
@[simp] theorem setFlag_now (s : State) (off i : Nat) : (setFlag s off i).now = s.now := rfl
@[simp] theorem setFlag_free (s : State) (off i : Nat) : (setFlag s off i).free = s.free := rfl
@[simp] theorem setFlag_reply (s : State) (off i : Nat) : (setFlag s off i).reply = s.reply := rfl
@[simp] theorem setFlag_out (s : State) (off i : Nat) : (setFlag s off i).out = s.out := rfl
@[simp] theorem setFlag_pending (s : State) (off i : Nat) : (setFlag s off i).pending = s.pending := rfl
@[simp] theorem setFlag_regs (s : State) (off i : Nat) : (setFlag s off i).regs =
    storePut 0 s.regs off (setBits (reg s off) i i 1) := rfl
@[simp] theorem setFlag_arr (s : State) (off i : Nat) : (setFlag s off i).arr = s.arr := rfl
@[simp] theorem setFlag_helm (s : State) (off i : Nat) : (setFlag s off i).helm = s.helm := rfl
@[simp] theorem setFlag_ldr (s : State) (off i : Nat) : (setFlag s off i).ldr = s.ldr := rfl
@[simp] theorem setFlag_ttb (s : State) (off i : Nat) : (setFlag s off i).ttb = s.ttb := rfl
@[simp] theorem setFlag_flt (s : State) (off i : Nat) : (setFlag s off i).flt = s.flt := rfl
@[simp] theorem setFlag_que (s : State) (off i : Nat) : (setFlag s off i).que = s.que := rfl
@[simp] theorem setFlag_mem (s : State) (off i : Nat) : (setFlag s off i).mem = s.mem := rfl
@[simp] theorem setFlag_plt (s : State) (off i : Nat) : (setFlag s off i).plt = s.plt := rfl
@[simp] theorem setFlag_fry (s : State) (off i : Nat) : (setFlag s off i).fry = s.fry := rfl
@[simp] theorem setFlag_fab (s : State) (off i : Nat) : (setFlag s off i).fab = s.fab := rfl
@[simp] theorem setFlag_wdn (s : State) (off i : Nat) : (setFlag s off i).wdn = s.wdn := rfl
@[simp] theorem setFlag_dbg (s : State) (off i : Nat) : (setFlag s off i).dbg = s.dbg := rfl

/-! ## A counting field advanced -/

@[simp] theorem countField_mode (s : State) (off hi lo n : Nat) : (countField s off hi lo n).mode = s.mode := rfl
@[simp] theorem countField_hx1 (s : State) (off hi lo n : Nat) : (countField s off hi lo n).hx1 = s.hx1 := rfl
@[simp] theorem countField_now (s : State) (off hi lo n : Nat) : (countField s off hi lo n).now = s.now := rfl
@[simp] theorem countField_free (s : State) (off hi lo n : Nat) : (countField s off hi lo n).free = s.free := rfl
@[simp] theorem countField_reply (s : State) (off hi lo n : Nat) : (countField s off hi lo n).reply =
    s.reply := rfl
@[simp] theorem countField_out (s : State) (off hi lo n : Nat) : (countField s off hi lo n).out = s.out := rfl
@[simp] theorem countField_pending (s : State) (off hi lo n : Nat) : (countField s off hi lo n).pending =
    s.pending := rfl
@[simp] theorem countField_regs (s : State) (off hi lo n : Nat) : (countField s off hi lo n).regs =
    storePut 0 s.regs off (setBits (reg s off) hi lo (satAdd (getField s off hi lo) n (2 ^ (hi + 1 - lo) - 1))) := rfl
@[simp] theorem countField_arr (s : State) (off hi lo n : Nat) : (countField s off hi lo n).arr = s.arr := rfl
@[simp] theorem countField_helm (s : State) (off hi lo n : Nat) : (countField s off hi lo n).helm = s.helm := rfl
@[simp] theorem countField_ldr (s : State) (off hi lo n : Nat) : (countField s off hi lo n).ldr = s.ldr := rfl
@[simp] theorem countField_ttb (s : State) (off hi lo n : Nat) : (countField s off hi lo n).ttb = s.ttb := rfl
@[simp] theorem countField_flt (s : State) (off hi lo n : Nat) : (countField s off hi lo n).flt = s.flt := rfl
@[simp] theorem countField_que (s : State) (off hi lo n : Nat) : (countField s off hi lo n).que = s.que := rfl
@[simp] theorem countField_mem (s : State) (off hi lo n : Nat) : (countField s off hi lo n).mem = s.mem := rfl
@[simp] theorem countField_plt (s : State) (off hi lo n : Nat) : (countField s off hi lo n).plt = s.plt := rfl
@[simp] theorem countField_fry (s : State) (off hi lo n : Nat) : (countField s off hi lo n).fry = s.fry := rfl
@[simp] theorem countField_fab (s : State) (off hi lo n : Nat) : (countField s off hi lo n).fab = s.fab := rfl
@[simp] theorem countField_wdn (s : State) (off hi lo n : Nat) : (countField s off hi lo n).wdn = s.wdn := rfl
@[simp] theorem countField_dbg (s : State) (off hi lo n : Nat) : (countField s off hi lo n).dbg = s.dbg := rfl

/-! ## Something leaves the module -/

@[simp] theorem emit_mode (s : State) (o : Out) : (emit s o).mode = s.mode := rfl
@[simp] theorem emit_hx1 (s : State) (o : Out) : (emit s o).hx1 = s.hx1 := rfl
@[simp] theorem emit_now (s : State) (o : Out) : (emit s o).now = s.now := rfl
@[simp] theorem emit_free (s : State) (o : Out) : (emit s o).free = s.free := rfl
@[simp] theorem emit_reply (s : State) (o : Out) : (emit s o).reply = s.reply := rfl
@[simp] theorem emit_out (s : State) (o : Out) : (emit s o).out = s.out ++ [o] := rfl
@[simp] theorem emit_pending (s : State) (o : Out) : (emit s o).pending = s.pending := rfl
@[simp] theorem emit_regs (s : State) (o : Out) : (emit s o).regs = s.regs := rfl
@[simp] theorem emit_arr (s : State) (o : Out) : (emit s o).arr = s.arr := rfl
@[simp] theorem emit_helm (s : State) (o : Out) : (emit s o).helm = s.helm := rfl
@[simp] theorem emit_ldr (s : State) (o : Out) : (emit s o).ldr = s.ldr := rfl
@[simp] theorem emit_ttb (s : State) (o : Out) : (emit s o).ttb = s.ttb := rfl
@[simp] theorem emit_flt (s : State) (o : Out) : (emit s o).flt = s.flt := rfl
@[simp] theorem emit_que (s : State) (o : Out) : (emit s o).que = s.que := rfl
@[simp] theorem emit_mem (s : State) (o : Out) : (emit s o).mem = s.mem := rfl
@[simp] theorem emit_plt (s : State) (o : Out) : (emit s o).plt = s.plt := rfl
@[simp] theorem emit_fry (s : State) (o : Out) : (emit s o).fry = s.fry := rfl
@[simp] theorem emit_fab (s : State) (o : Out) : (emit s o).fab = s.fab := rfl
@[simp] theorem emit_wdn (s : State) (o : Out) : (emit s o).wdn = s.wdn := rfl
@[simp] theorem emit_dbg (s : State) (o : Out) : (emit s o).dbg = s.dbg := rfl

/-! ## An answer -/

@[simp] theorem answerWith_mode (s : State) (l : List Nat) : (answerWith s l).mode = s.mode := rfl
@[simp] theorem answerWith_hx1 (s : State) (l : List Nat) : (answerWith s l).hx1 = s.hx1 := rfl
@[simp] theorem answerWith_now (s : State) (l : List Nat) : (answerWith s l).now = s.now := rfl
@[simp] theorem answerWith_free (s : State) (l : List Nat) : (answerWith s l).free = s.free := rfl
@[simp] theorem answerWith_reply (s : State) (l : List Nat) : (answerWith s l).reply = l := rfl
@[simp] theorem answerWith_out (s : State) (l : List Nat) : (answerWith s l).out = s.out := rfl
@[simp] theorem answerWith_pending (s : State) (l : List Nat) : (answerWith s l).pending = s.pending := rfl
@[simp] theorem answerWith_regs (s : State) (l : List Nat) : (answerWith s l).regs = s.regs := rfl
@[simp] theorem answerWith_arr (s : State) (l : List Nat) : (answerWith s l).arr = s.arr := rfl
@[simp] theorem answerWith_helm (s : State) (l : List Nat) : (answerWith s l).helm = s.helm := rfl
@[simp] theorem answerWith_ldr (s : State) (l : List Nat) : (answerWith s l).ldr = s.ldr := rfl
@[simp] theorem answerWith_ttb (s : State) (l : List Nat) : (answerWith s l).ttb = s.ttb := rfl
@[simp] theorem answerWith_flt (s : State) (l : List Nat) : (answerWith s l).flt = s.flt := rfl
@[simp] theorem answerWith_que (s : State) (l : List Nat) : (answerWith s l).que = s.que := rfl
@[simp] theorem answerWith_mem (s : State) (l : List Nat) : (answerWith s l).mem = s.mem := rfl
@[simp] theorem answerWith_plt (s : State) (l : List Nat) : (answerWith s l).plt = s.plt := rfl
@[simp] theorem answerWith_fry (s : State) (l : List Nat) : (answerWith s l).fry = s.fry := rfl
@[simp] theorem answerWith_fab (s : State) (l : List Nat) : (answerWith s l).fab = s.fab := rfl
@[simp] theorem answerWith_wdn (s : State) (l : List Nat) : (answerWith s l).wdn = s.wdn := rfl
@[simp] theorem answerWith_dbg (s : State) (l : List Nat) : (answerWith s l).dbg = s.dbg := rfl

/-! ## A free value taken -/

@[simp] theorem usedFree_mode (s : State) : (usedFree s).mode = s.mode := rfl
@[simp] theorem usedFree_hx1 (s : State) : (usedFree s).hx1 = s.hx1 := rfl
@[simp] theorem usedFree_now (s : State) : (usedFree s).now = s.now := rfl
@[simp] theorem usedFree_free (s : State) : (usedFree s).free = s.free + 1 := rfl
@[simp] theorem usedFree_reply (s : State) : (usedFree s).reply = s.reply := rfl
@[simp] theorem usedFree_out (s : State) : (usedFree s).out = s.out := rfl
@[simp] theorem usedFree_pending (s : State) : (usedFree s).pending = s.pending := rfl
@[simp] theorem usedFree_regs (s : State) : (usedFree s).regs = s.regs := rfl
@[simp] theorem usedFree_arr (s : State) : (usedFree s).arr = s.arr := rfl
@[simp] theorem usedFree_helm (s : State) : (usedFree s).helm = s.helm := rfl
@[simp] theorem usedFree_ldr (s : State) : (usedFree s).ldr = s.ldr := rfl
@[simp] theorem usedFree_ttb (s : State) : (usedFree s).ttb = s.ttb := rfl
@[simp] theorem usedFree_flt (s : State) : (usedFree s).flt = s.flt := rfl
@[simp] theorem usedFree_que (s : State) : (usedFree s).que = s.que := rfl
@[simp] theorem usedFree_mem (s : State) : (usedFree s).mem = s.mem := rfl
@[simp] theorem usedFree_plt (s : State) : (usedFree s).plt = s.plt := rfl
@[simp] theorem usedFree_fry (s : State) : (usedFree s).fry = s.fry := rfl
@[simp] theorem usedFree_fab (s : State) : (usedFree s).fab = s.fab := rfl
@[simp] theorem usedFree_wdn (s : State) : (usedFree s).wdn = s.wdn := rfl
@[simp] theorem usedFree_dbg (s : State) : (usedFree s).dbg = s.dbg := rfl

/-! ## A report to the fault manager -/

@[simp] theorem report_mode (s : State) (src inst : Nat) (detail : Word) : (report s src inst detail).mode =
    s.mode := rfl
@[simp] theorem report_hx1 (s : State) (src inst : Nat) (detail : Word) : (report s src inst detail).hx1 =
    s.hx1 := rfl
@[simp] theorem report_now (s : State) (src inst : Nat) (detail : Word) : (report s src inst detail).now =
    s.now := rfl
@[simp] theorem report_free (s : State) (src inst : Nat) (detail : Word) : (report s src inst detail).free =
    s.free := rfl
@[simp] theorem report_reply (s : State) (src inst : Nat) (detail : Word) : (report s src inst detail).reply =
    s.reply := rfl
@[simp] theorem report_out (s : State) (src inst : Nat) (detail : Word) : (report s src inst detail).out =
    s.out := rfl
@[simp] theorem report_pending (s : State) (src inst : Nat) (detail : Word) : (report s src inst detail).pending =
    s.pending := rfl
@[simp] theorem report_regs (s : State) (src inst : Nat) (detail : Word) : (report s src inst detail).regs =
    s.regs := rfl
@[simp] theorem report_arr (s : State) (src inst : Nat) (detail : Word) : (report s src inst detail).arr =
    s.arr := rfl
@[simp] theorem report_helm (s : State) (src inst : Nat) (detail : Word) : (report s src inst detail).helm =
    s.helm := rfl
@[simp] theorem report_ldr (s : State) (src inst : Nat) (detail : Word) : (report s src inst detail).ldr =
    s.ldr := rfl
@[simp] theorem report_ttb (s : State) (src inst : Nat) (detail : Word) : (report s src inst detail).ttb =
    s.ttb := rfl
@[simp] theorem report_flt (s : State) (src inst : Nat) (detail : Word) : (report s src inst detail).flt =
    { s.flt with reports := s.flt.reports ++ [⟨BitVec.ofNat 8 src, BitVec.ofNat 9 inst, detail⟩] } := rfl
@[simp] theorem report_que (s : State) (src inst : Nat) (detail : Word) : (report s src inst detail).que =
    s.que := rfl
@[simp] theorem report_mem (s : State) (src inst : Nat) (detail : Word) : (report s src inst detail).mem =
    s.mem := rfl
@[simp] theorem report_plt (s : State) (src inst : Nat) (detail : Word) : (report s src inst detail).plt =
    s.plt := rfl
@[simp] theorem report_fry (s : State) (src inst : Nat) (detail : Word) : (report s src inst detail).fry =
    s.fry := rfl
@[simp] theorem report_fab (s : State) (src inst : Nat) (detail : Word) : (report s src inst detail).fab =
    s.fab := rfl
@[simp] theorem report_wdn (s : State) (src inst : Nat) (detail : Word) : (report s src inst detail).wdn =
    s.wdn := rfl
@[simp] theorem report_dbg (s : State) (src inst : Nat) (detail : Word) : (report s src inst detail).dbg =
    s.dbg := rfl

/-! ## Bytes of memory written -/

@[simp] theorem pokeBytes_mode (s : State) (a : Nat) (bs : List Byte) : (pokeBytes s a bs).mode = s.mode := rfl
@[simp] theorem pokeBytes_hx1 (s : State) (a : Nat) (bs : List Byte) : (pokeBytes s a bs).hx1 = s.hx1 := rfl
@[simp] theorem pokeBytes_now (s : State) (a : Nat) (bs : List Byte) : (pokeBytes s a bs).now = s.now := rfl
@[simp] theorem pokeBytes_free (s : State) (a : Nat) (bs : List Byte) : (pokeBytes s a bs).free = s.free := rfl
@[simp] theorem pokeBytes_reply (s : State) (a : Nat) (bs : List Byte) : (pokeBytes s a bs).reply = s.reply := rfl
@[simp] theorem pokeBytes_out (s : State) (a : Nat) (bs : List Byte) : (pokeBytes s a bs).out = s.out := rfl
@[simp] theorem pokeBytes_pending (s : State) (a : Nat) (bs : List Byte) : (pokeBytes s a bs).pending =
    s.pending := rfl
@[simp] theorem pokeBytes_regs (s : State) (a : Nat) (bs : List Byte) : (pokeBytes s a bs).regs = s.regs := rfl
@[simp] theorem pokeBytes_arr (s : State) (a : Nat) (bs : List Byte) : (pokeBytes s a bs).arr = s.arr := rfl
@[simp] theorem pokeBytes_helm (s : State) (a : Nat) (bs : List Byte) : (pokeBytes s a bs).helm = s.helm := rfl
@[simp] theorem pokeBytes_ldr (s : State) (a : Nat) (bs : List Byte) : (pokeBytes s a bs).ldr = s.ldr := rfl
@[simp] theorem pokeBytes_ttb (s : State) (a : Nat) (bs : List Byte) : (pokeBytes s a bs).ttb = s.ttb := rfl
@[simp] theorem pokeBytes_flt (s : State) (a : Nat) (bs : List Byte) : (pokeBytes s a bs).flt = s.flt := rfl
@[simp] theorem pokeBytes_que (s : State) (a : Nat) (bs : List Byte) : (pokeBytes s a bs).que = s.que := rfl
@[simp] theorem pokeBytes_mem (s : State) (a : Nat) (bs : List Byte) : (pokeBytes s a bs).mem =
    { s.mem with bytes := putBytes s.mem.bytes a bs } := rfl
@[simp] theorem pokeBytes_plt (s : State) (a : Nat) (bs : List Byte) : (pokeBytes s a bs).plt = s.plt := rfl
@[simp] theorem pokeBytes_fry (s : State) (a : Nat) (bs : List Byte) : (pokeBytes s a bs).fry = s.fry := rfl
@[simp] theorem pokeBytes_fab (s : State) (a : Nat) (bs : List Byte) : (pokeBytes s a bs).fab = s.fab := rfl
@[simp] theorem pokeBytes_wdn (s : State) (a : Nat) (bs : List Byte) : (pokeBytes s a bs).wdn = s.wdn := rfl
@[simp] theorem pokeBytes_dbg (s : State) (a : Nat) (bs : List Byte) : (pokeBytes s a bs).dbg = s.dbg := rfl

end Sys2Proof.Machine
end

