-- ==== Sys2Proof/Laws/Store.lean ====
section
/-!
SUPPORT. Sparse stores: what a read gives after a write, and that every operation keeps the canonical form.
-/
set_option autoImplicit false
namespace Sys2Proof.Machine

/-! ## Read after write -/

theorem storeGet_storeDrop {β : Type} (d : β) (l : List (Nat × β)) (k j : Nat) :
    storeGet d (storeDrop l k) j = if j = k then d else storeGet d l j := by
  induction l with
  | nil => simp [storeDrop, storeGet]
  | cons p t ih =>
    obtain ⟨a, b⟩ := p
    simp only [storeDrop]
    split
    · subst_vars; rw [ih]; simp only [storeGet]; split
      · rfl
      · rw [if_neg (Ne.symm ‹_›)]
    · simp only [storeGet]; split
      · subst_vars; rw [if_neg ‹_›]
      · exact ih

theorem storeGet_storeInsert {β : Type} (d : β) (l : List (Nat × β)) (k : Nat) (v : β) (j : Nat)
    (h : storeGet d l k = d) (hk : ∀ p ∈ l, p.1 ≠ k) :
    storeGet d (storeInsert l k v) j = if j = k then v else storeGet d l j := by
  induction l with
  | nil => simp [storeInsert, storeGet, eq_comm]
  | cons p t ih =>
    obtain ⟨a, b⟩ := p
    have ha : a ≠ k := hk (a, b) (List.mem_cons_self ..)
    simp only [storeInsert]
    split
    · simp only [storeGet, eq_comm]
    · simp only [storeGet]
      split
      · subst_vars; rw [if_neg ha]
      · refine ih ?_ fun p hp => hk p (List.mem_cons_of_mem _ hp)
        simpa only [storeGet, if_neg ha] using h

theorem storeDrop_keys {β : Type} (l : List (Nat × β)) (k : Nat) : ∀ p ∈ storeDrop l k, p.1 ≠ k := by
  induction l with
  | nil => simp [storeDrop]
  | cons p t ih =>
    obtain ⟨a, b⟩ := p
    simp only [storeDrop]
    split
    · exact ih
    · rename_i h
      intro q hq
      rcases List.mem_cons.mp hq with rfl | hq
      · exact h
      · exact ih q hq

/-- What a key reads as after a write: the value written, or what it read as before. -/
@[simp] theorem storeGet_storePut {β : Type} [DecidableEq β] (d : β) (l : List (Nat × β)) (k : Nat) (v : β) (j : Nat) :
    storeGet d (storePut d l k v) j = if j = k then v else storeGet d l j := by
  unfold storePut
  split
  · subst_vars; exact storeGet_storeDrop ..
  · rw [storeGet_storeInsert]
    · split <;> simp_all [storeGet_storeDrop]
    · simp [storeGet_storeDrop]
    · exact storeDrop_keys l k

/-! ## The canonical form -/

theorem storeAbove_of_lt {β : Type} {k j : Nat} {l : List (Nat × β)} (h : k < j) (hl : storeAbove j l = true) :
    storeAbove k l = true := by
  cases l with
  | nil => rfl
  | cons p t => simp only [storeAbove, decide_eq_true_eq] at *; omega

theorem storeDrop_above {β : Type} [DecidableEq β] {d : β} {l : List (Nat × β)} {a : Nat} (k : Nat)
    (h : storeAbove a l = true) (hl : storeWf d l = true) : storeAbove a (storeDrop l k) = true := by
  induction l generalizing a with
  | nil => rfl
  | cons p t ih =>
    obtain ⟨x, y⟩ := p
    simp only [storeWf, storeAbove, Bool.and_eq_true, decide_eq_true_eq] at h hl
    simp only [storeDrop]
    split
    · exact ih (storeAbove_of_lt h hl.1.2) hl.2
    · simpa [storeAbove] using h

theorem storeDrop_wf {β : Type} [DecidableEq β] {d : β} {l : List (Nat × β)} (k : Nat) (hl : storeWf d l = true) :
    storeWf d (storeDrop l k) = true := by
  induction l with
  | nil => rfl
  | cons p t ih =>
    obtain ⟨x, y⟩ := p
    simp only [storeWf, Bool.and_eq_true, decide_eq_true_eq] at hl
    simp only [storeDrop]
    split
    · exact ih hl.2
    · simp only [storeWf, Bool.and_eq_true, decide_eq_true_eq]
      exact ⟨⟨hl.1.1, storeDrop_above k hl.1.2 hl.2⟩, ih hl.2⟩

theorem storeInsert_wf {β : Type} [DecidableEq β] {d : β} {l : List (Nat × β)} {k : Nat} {v : β} (hv : v ≠ d)
    (hk : ∀ p ∈ l, p.1 ≠ k) (hl : storeWf d l = true) :
    storeWf d (storeInsert l k v) = true ∧ ∀ a, a < k → storeAbove a l = true →
      storeAbove a (storeInsert l k v) = true := by
  induction l with
  | nil => simp [storeInsert, storeWf, storeAbove, hv]
  | cons p t ih =>
    obtain ⟨x, y⟩ := p
    have hx : x ≠ k := hk (x, y) (List.mem_cons_self ..)
    have ih := ih (fun p hp => hk p (List.mem_cons_of_mem _ hp))
    simp only [storeWf, Bool.and_eq_true, decide_eq_true_eq] at hl
    simp only [storeInsert]
    split
    · simp_all [storeWf, storeAbove]
    · have ih := ih hl.2
      simp only [storeWf, Bool.and_eq_true, decide_eq_true_eq]
      exact ⟨⟨⟨hl.1.1, ih.2 x (by omega) hl.1.2⟩, ih.1⟩, fun a _ h => by simpa [storeAbove] using h⟩

/-- A write keeps the canonical form. -/
theorem storePut_wf {β : Type} [DecidableEq β] {d : β} {l : List (Nat × β)} (k : Nat) (v : β) (hl : storeWf d l = true) :
    storeWf d (storePut d l k v) = true := by
  unfold storePut
  split
  · exact storeDrop_wf k hl
  · exact (storeInsert_wf ‹_› (storeDrop_keys l k) (storeDrop_wf k hl)).1

/-! ## Numbers and their bytes -/

@[simp] theorem bytesOf_length (n : Nat) : ∀ v, (bytesOf v n).length = n := by
  induction n with
  | zero => exact fun _ => rfl
  | succ n ih => exact fun v => by rw [bytesOf, List.length_cons, ih]

theorem bytesOf_numOf (l : List Byte) : bytesOf (numOf l) l.length = l := by
  induction l with
  | nil => rfl
  | cons b t ih =>
    have hb := b.isLt
    rw [numOf, List.length_cons, bytesOf, show (b.toNat + 256 * numOf t) / 256 = numOf t by omega, ih]
    congr 1
    apply BitVec.eq_of_toNat_eq
    rw [BitVec.toNat_ofNat]; omega

theorem numOf_bytesOf (n : Nat) : ∀ v, numOf (bytesOf v n) = v % 256 ^ n := by
  induction n with
  | zero => intro v; simp [bytesOf, numOf, Nat.mod_one]
  | succ n ih =>
    intro v
    rw [bytesOf, numOf, ih, BitVec.toNat_ofNat, Nat.pow_succ 256 n, Nat.mul_comm (256 ^ n) 256, Nat.mod_mul]

theorem numOf_lt (l : List Byte) : numOf l < 256 ^ l.length := by
  induction l with
  | nil => simp [numOf]
  | cons b t ih => have := b.isLt; rw [numOf, List.length_cons, Nat.pow_succ]; omega

end Sys2Proof.Machine
end

