-- ==== Sys2Proof/Laws/Memory.lean ====
section
/-!
SUPPORT. Registers and module memory: a read after a write, which operations leave the bytes of memory alone, and that
every memory operation keeps the canonical form.
-/
set_option autoImplicit false
namespace Sys2Proof.Machine

/-! ## Registers -/

/-- What a register holds after a store. -/
@[simp] theorem reg_setReg (s : State) (a b : Nat) (v : Word) : reg (setReg s a v) b = if b = a then v else reg s b :=
  storeGet_storePut ..

/-- A register's address is none of module DRAM. -/
theorem place_regAddr (off : Nat) : place (regAddr off) ≠ .dram := by
  unfold place regAddr
  rw [if_neg (by simp only [dramSize]; omega)]
  repeat (first | split | simp)

/-- What a request for a register meets depends on the registers only by the NIs that are isolated. -/
theorem reachesUnit_setReg (s : State) (wr : Writer) (off a : Nat) (v : Word) (h : a ≠ Reg.nocIsoLo) :
    reachesUnit (setReg s a v) wr off = reachesUnit s wr off := by
  have hi (n : Nat) : isolated (setReg s a v) n = isolated s n := by rw [isolated, reg_setReg, if_neg (Ne.symm h)]; rfl
  simp only [reachesUnit, gateResp, hi, place_regAddr, false_and, if_false]
  rfl

/-- Who may write a register depends on the registers only by the NIs that are isolated. -/
theorem writerMay_setReg (s : State) (wr : Writer) (off a : Nat) (v : Word) (h : a ≠ Reg.nocIsoLo) :
    writerMay (setReg s a v) wr off = writerMay s wr off := by
  simp only [writerMay, reachesUnit_setReg _ _ _ _ _ h]
  rfl

/-! ## Bytes of memory -/

/-- What a key reads as after bytes are written from a. -/
theorem storeGet_putBytes (bs : List Byte) (l : List (Nat × Byte)) (a k : Nat) :
    storeGet 0 (putBytes l a bs) k = if a ≤ k ∧ k < a + bs.length then bs.getD (k - a) 0 else storeGet 0 l k := by
  induction bs generalizing l a with
  | nil => rw [if_neg (by rw [List.length_nil]; omega)]; rfl
  | cons b t ih =>
    rw [putBytes, ih, storeGet_storePut, List.length_cons]
    by_cases h : k = a
    · subst h; rw [if_neg (by omega), if_pos rfl, if_pos (by omega)]; simp
    · rw [if_neg h]
      by_cases h1 : a + 1 ≤ k ∧ k < a + 1 + t.length
      · rw [if_pos h1, if_pos (by omega)]
        obtain ⟨j, hj⟩ : ∃ j, k - a = j + 1 := ⟨k - a - 1, by omega⟩
        rw [hj, List.getD_cons_succ]; congr 1; omega
      · rw [if_neg h1, if_neg (by omega)]

/-- The bytes written, and every other byte as before. -/
theorem memByte_pokeBytes (s : State) (a k : Nat) (bs : List Byte) :
    memByte (pokeBytes s a bs) k = if a ≤ k ∧ k < a + bs.length then bs.getD (k - a) 0 else memByte s k :=
  storeGet_putBytes ..

theorem putBytes_wf (bs : List Byte) {l : List (Nat × Byte)} (a : Nat) (h : storeWf 0 l = true) :
    storeWf 0 (putBytes l a bs) = true := by
  induction bs generalizing l a with
  | nil => exact h
  | cons b t ih => exact ih _ (storePut_wf _ _ h)

/-! ## Operations that leave the bytes of memory alone -/

/-- A fold of operations that leave the bytes alone leaves them alone. -/
theorem foldl_bytes {α : Type} (f : State → α → State) (hf : ∀ s x, (f s x).mem.bytes = s.mem.bytes)
    (l : List α) (s : State) :
    (l.foldl f s).mem.bytes = s.mem.bytes := by
  induction l generalizing s with
  | nil => rfl
  | cons x t ih => rw [List.foldl_cons, ih, hf]

@[simp] theorem eccEvent_bytes (s : State) (w : Nat) (d : Damage) (side : Bool) :
    (eccEvent s w d side).mem.bytes = s.mem.bytes := by
  unfold eccEvent
  split
  · cases d
    · simp
    · simp only [report_mem]; split <;> simp
  · cases d
    · simp
    · simp only [report_mem]; split <;> simp
  · rfl

@[simp] theorem freshWord_bytes (s : State) (w : Nat) : (freshWord s w).mem.bytes = s.mem.bytes := rfl

@[simp] theorem readWord_bytes (s : State) (side : Bool) (w : Nat) : (readWord s side w).mem.bytes = s.mem.bytes := by
  unfold readWord
  split
  · rfl
  · simp
  · dsimp only; split <;> simp

@[simp] theorem writeBack_bytes (s : State) (hit : Nat → Bool) : (writeBack s hit).mem.bytes = s.mem.bytes := rfl

@[simp] theorem snoop_bytes (s : State) (a n : Nat) : (snoop s a n).mem.bytes = s.mem.bytes := by
  unfold snoop; split <;> simp

@[simp] theorem loseReservation_mem (s : State) (a n : Nat) : (loseReservation s a n).mem = s.mem := by
  unfold loseReservation
  split
  · rfl
  · split <;> rfl

@[simp] theorem nocFailure_mem (s : State) (ni tgt : Nat) (r : Resp) : (nocFailure s ni tgt r).mem = s.mem := by
  cases r <;> simp [nocFailure]

@[simp] theorem nocCount_bytes (s : State) (ni len : Nat) (late : Bool) :
    (nocCount s ni len late).mem.bytes = s.mem.bytes := rfl

@[simp] theorem nocGate_bytes (s : State) (ni a : Nat) : (nocGate s ni a).1.mem.bytes = s.mem.bytes := by
  unfold nocGate
  dsimp only
  repeat (first | split | simp)

@[simp] theorem nocBytes_bytes (s : State) (ni len : Nat) : (nocBytes s ni len).mem.bytes = s.mem.bytes := rfl

@[simp] theorem memRead_bytes (s : State) (side : Bool) (a n : Nat) : (memRead s side a n).1.mem.bytes = s.mem.bytes := by
  unfold memRead
  dsimp only
  split
  · exact foldl_bytes _ (fun s w => readWord_bytes s side w) _ s
  · exact foldl_bytes _ (fun s w => readWord_bytes s side w) _ s

@[simp] theorem mergeWord_bytes (s : State) (side : Bool) (a n w : Nat) :
    (mergeWord s side a n w).mem.bytes = s.mem.bytes := by
  unfold mergeWord
  split
  · split <;> simp
  · rfl

@[simp] theorem nocRead_bytes (s : State) (ni a n : Nat) : (nocRead s ni a n).1.mem.bytes = s.mem.bytes := by
  have h := nocGate_bytes s ni a
  unfold nocRead
  split
  · rename_i t heq
    rw [heq] at h
    split
    · simpa using h
    · simp only [memRead_bytes, nocBytes_bytes]; split <;> simpa using h
  · rename_i heq; rw [heq] at h; exact h

@[simp] theorem homeRead_bytes (s : State) (b a n : Nat) : (homeRead s b a n).1.mem.bytes = s.mem.bytes :=
  memRead_bytes ..

@[simp] theorem collide_mem (s : State) (ni a : Nat) : (collide s ni a).mem = s.mem := by
  unfold collide; split <;> simp

@[simp] theorem collideTimes_mem (s : State) (ni a k : Nat) : (collideTimes s ni a k).mem = s.mem := by
  induction k with
  | zero => rfl
  | succ k ih => rw [collideTimes, collide_mem, ih]

@[simp] theorem markDirty_bytes (s : State) (line : Nat) : (markDirty s line).mem.bytes = s.mem.bytes := by
  unfold markDirty; split <;> rfl

/-! ## The canonical form -/

/-- Memory right after reset has its canonical form. -/
theorem memoryWf_reset : Safety.memoryWf State.reset = true := rfl

theorem memoryWf_of_bytes {s t : State} (h : t.mem.bytes = s.mem.bytes) (hs : Safety.memoryWf s = true) :
    Safety.memoryWf t = true := by
  unfold Safety.memoryWf at *; rw [h]; exact hs

theorem pokeBytes_wf {s : State} (a : Nat) (bs : List Byte) (h : Safety.memoryWf s = true) :
    Safety.memoryWf (pokeBytes s a bs) = true := putBytes_wf bs a h

theorem memWrite_wf {s : State} (side : Bool) (a : Nat) (bs : List Byte) (h : Safety.memoryWf s = true) :
    Safety.memoryWf (memWrite s side a bs).1 = true := by
  unfold memWrite
  have hm := foldl_bytes _ (fun s w => mergeWord_bytes s side a bs.length w) (wordsOf a bs.length) s
  dsimp only
  split
  · exact memoryWf_of_bytes hm h
  · refine pokeBytes_wf a bs (memoryWf_of_bytes ?_ h)
    rw [foldl_bytes _ freshWord_bytes, hm]

theorem writePieces_wf (ni : Nat) (inBank : Bool) (fuel : Nat) {s : State} (a : Nat) (bs : List Byte)
    (hits : List Nat) (h : Safety.memoryWf s = true) : Safety.memoryWf (writePieces ni inBank fuel s a bs hits).1 = true := by
  induction fuel generalizing s a bs hits with
  | zero => exact h
  | succ n ih =>
    unfold writePieces
    split
    · exact h
    · dsimp only
      generalize (if inBank = true then hits.headD 0 else 0) = c
      refine ih _ _ _ ?_
      split
      · exact memoryWf_of_bytes (by simp) h
      · split
        · exact memoryWf_of_bytes (by simp) h
        · refine memWrite_wf inBank a _ (memoryWf_of_bytes ?_ h)
          rw [show ∀ s : State, (if ni = 0 then s else loseReservation (snoop s a (pieceLen inBank a bs.length)) a
            (pieceLen inBank a bs.length)).mem.bytes = s.mem.bytes from fun s => by split <;> simp, collideTimes_mem]

/-- A write over the network keeps the canonical form. -/
theorem nocWrite_wf {s : State} (ni a : Nat) (bs : List Byte) (hits : List Nat) (h : Safety.memoryWf s = true) :
    Safety.memoryWf (nocWrite s ni a bs hits).1 = true := by
  have hg := memoryWf_of_bytes (nocGate_bytes s ni a) h
  unfold nocWrite
  dsimp only
  split
  · rename_i t heq
    rw [heq] at hg
    split
    · exact memoryWf_of_bytes (by simp) hg
    · exact writePieces_wf _ _ _ _ _ _ (memoryWf_of_bytes (by simp) hg)
  · rename_i heq; rw [heq] at hg; exact hg

/-- A Pilot's write to a bank keeps the canonical form. -/
theorem pilotBankWrite_wf {s : State} (a : Nat) (bs : List Byte) (collided : Nat) (h : Safety.memoryWf s = true) :
    Safety.memoryWf (pilotBankWrite s a bs collided).1 = true := by
  unfold pilotBankWrite
  dsimp only
  split
  · exact nocWrite_wf 0 a bs [collided] h
  · exact h

/-- A home master's write keeps the canonical form. -/
theorem homeWrite_wf {s : State} (b a : Nat) (bs : List Byte) (h : Safety.memoryWf s = true) :
    Safety.memoryWf (homeWrite s b a bs).1 = true :=
  memWrite_wf _ _ _ (memoryWf_of_bytes (by split <;> simp) h)

/-- A write on the Loader's channel keeps the canonical form. -/
theorem spanWrite_wf {s : State} (a : Nat) (bs : List Byte) (h : Safety.memoryWf s = true) :
    Safety.memoryWf (spanWrite s a bs) = true :=
  pokeBytes_wf a bs (memoryWf_of_bytes (by simp) h)

@[simp] theorem spanRead_bytes (s : State) (a n : Nat) : (spanRead s a n).1.mem.bytes = s.mem.bytes := by
  unfold spanRead
  dsimp only
  rw [foldl_bytes _ (fun s (p : Nat × Damage) => readWord_bytes s false p.1), snoop_bytes]

/-- A fold of operations that keep the canonical form keeps it. -/
theorem foldl_wf {α : Type} (f : State → α → State)
    (hf : ∀ s x, Safety.memoryWf s = true → Safety.memoryWf (f s x) = true) (l : List α) {s : State}
    (h : Safety.memoryWf s = true) : Safety.memoryWf (l.foldl f s) = true := by
  induction l generalizing s with
  | nil => exact h
  | cons x t ih => exact ih (hf s x h)

/-- Stores into cached lines keep the canonical form. -/
theorem storeCached_wf {s : State} (a : Nat) (bs : List Byte) (h : Safety.memoryWf s = true) :
    Safety.memoryWf (storeCached s a bs) = true :=
  foldl_wf _ (fun _ _ h => pokeBytes_wf _ _ h) _ (memoryWf_of_bytes (foldl_bytes _ markDirty_bytes _ _) h)

/-- Discarding dirty lines keeps the canonical form. -/
theorem discardDirty_wf {s : State} (h : Safety.memoryWf s = true) : Safety.memoryWf (discardDirty s) = true := by
  have hf := foldl_wf (fun s (p : Nat × Raw64) => pokeBytes s (64 * p.1) (bytesOf p.2.toNat 64))
    (fun _ _ h => pokeBytes_wf _ _ h) s.mem.dirty h
  unfold discardDirty Safety.memoryWf at *
  exact hf

end Sys2Proof.Machine
end

