-- ==== Sys2Proof/Laws/Access.lean ====
section
/-!
SUPPORT. What an access to module memory can change: registers, memory, the reports to the fault manager, the counter of
free values and the Pilots' reservation; every other piece of state stays.
-/
set_option autoImplicit false
namespace Sys2Proof.Machine

/-- From s to t nothing changed but registers, memory, reports, the counter of free values and the reservation. -/
def AccessOnly (s t : State) : Prop :=
  ∃ free regs reports mem resv, t = { s with
    free := free, regs := regs, flt := { s.flt with reports := reports }, mem := mem, plt := { s.plt with resv := resv } }

namespace AccessOnly

theorem refl (s : State) : AccessOnly s s := ⟨s.free, s.regs, s.flt.reports, s.mem, s.plt.resv, rfl⟩

theorem trans {s t u : State} (h : AccessOnly s t) (k : AccessOnly t u) : AccessOnly s u := by
  obtain ⟨_, _, _, _, _, rfl⟩ := h
  obtain ⟨a, b, c, d, e, rfl⟩ := k
  exact ⟨a, b, c, d, e, rfl⟩

theorem setReg (s : State) (a : Nat) (v : Word) : AccessOnly s (setReg s a v) :=
  ⟨s.free, _, s.flt.reports, s.mem, s.plt.resv, rfl⟩

theorem usedFree (s : State) : AccessOnly s (usedFree s) := ⟨_, s.regs, s.flt.reports, s.mem, s.plt.resv, rfl⟩

theorem report (s : State) (src inst : Nat) (d : Word) : AccessOnly s (report s src inst d) :=
  ⟨s.free, s.regs, _, s.mem, s.plt.resv, rfl⟩

theorem ofMem (s : State) (m : MemState) : AccessOnly s { s with mem := m } :=
  ⟨s.free, s.regs, s.flt.reports, m, s.plt.resv, rfl⟩

theorem ite {s a b : State} {p : Prop} [Decidable p] (h : AccessOnly s a) (k : AccessOnly s b) :
    AccessOnly s (if p then a else b) := by split <;> assumption

theorem foldl {α : Type} (f : State → α → State) (hf : ∀ s x, AccessOnly s (f s x)) (l : List α) (s : State) :
    AccessOnly s (l.foldl f s) := by
  induction l generalizing s with
  | nil => exact refl s
  | cons x t ih => exact (hf s x).trans (ih _)

theorem setField (s : State) (a hi lo v : Nat) : AccessOnly s (setField s a hi lo v) := setReg ..

theorem countField (s : State) (a hi lo n : Nat) : AccessOnly s (countField s a hi lo n) := setReg ..

theorem setFlag (s : State) (a i : Nat) : AccessOnly s (setFlag s a i) := setReg ..

theorem nocFailure (s : State) (ni tgt : Nat) (r : Resp) : AccessOnly s (nocFailure s ni tgt r) := by
  cases r
  · exact refl s
  · exact report ..
  · exact (setFlag ..).trans (report ..)
  · exact report ..
  · exact refl s
  · exact report ..
  · exact ((countField ..).trans (setFlag ..)).trans (report ..)

theorem nocCount (s : State) (ni len : Nat) (late : Bool) : AccessOnly s (nocCount s ni len late) :=
  (ofMem s _).trans (usedFree _)

/-- What a request leaves behind on its way to its target. -/
theorem nocGate (s : State) (ni a : Nat) : AccessOnly s (nocGate s ni a).1 := by
  have h := nocCount s ni 0 (decide (gateResp s ni a = .timeout))
  unfold Machine.nocGate
  dsimp only
  split
  · exact h
  · have k (t : State) : AccessOnly t (if isolated s ni = true then Machine.countField t Reg.nocEvt 31 16 1 else t) :=
      ite (countField ..) (refl t)
    split
    · exact h.trans ((k _).trans (nocFailure ..))
    · exact h.trans ((k _).trans ((usedFree _).trans (nocFailure ..)))

theorem eccEvent (s : State) (w : Nat) (d : Damage) (side : Bool) : AccessOnly s (eccEvent s w d side) := by
  unfold Machine.eccEvent
  dsimp only
  split
  · cases d
    · exact (countField ..).trans (report ..)
    · exact ((countField ..).trans (ite (refl _) (setReg ..))).trans (report ..)
  · cases d
    · exact (countField ..).trans (report ..)
    · exact ((countField ..).trans (ite (refl _) ((setReg ..).trans (setReg ..)))).trans (report ..)
  · exact refl s

theorem freshWord (s : State) (w : Nat) : AccessOnly s (freshWord s w) := ofMem ..

theorem readWord (s : State) (side : Bool) (w : Nat) : AccessOnly s (readWord s side w) := by
  unfold Machine.readWord
  split
  · exact refl s
  · exact eccEvent ..
  · exact (eccEvent ..).trans (ite (refl _) (ofMem ..))

theorem writeBack (s : State) (hit : Nat → Bool) : AccessOnly s (writeBack s hit) := ofMem ..

theorem snoop (s : State) (a n : Nat) : AccessOnly s (snoop s a n) := ite (refl s) (writeBack ..)

theorem loseReservation (s : State) (a n : Nat) : AccessOnly s (loseReservation s a n) := by
  unfold Machine.loseReservation
  split
  · exact refl s
  · exact ite ⟨s.free, s.regs, s.flt.reports, s.mem, none, rfl⟩ (refl s)

theorem pokeBytes (s : State) (a : Nat) (bs : List Byte) : AccessOnly s (pokeBytes s a bs) := ofMem ..

/-- What a read of memory leaves behind. -/
theorem memRead (s : State) (side : Bool) (a n : Nat) : AccessOnly s (memRead s side a n).1 := by
  have h := foldl _ (fun s w => readWord s side w) (wordsOf a n) s
  unfold Machine.memRead
  dsimp only
  split
  · exact h.trans (usedFree _)
  · exact h

theorem mergeWord (s : State) (side : Bool) (a n w : Nat) : AccessOnly s (mergeWord s side a n w) := by
  unfold Machine.mergeWord
  split
  · exact ite (refl s) (eccEvent ..)
  · exact refl s

/-- What a write of memory can change. -/
theorem memWrite (s : State) (side : Bool) (a : Nat) (bs : List Byte) : AccessOnly s (memWrite s side a bs).1 := by
  have h := foldl _ (fun s w => mergeWord s side a bs.length w) (wordsOf a bs.length) s
  unfold Machine.memWrite
  dsimp only
  split
  · exact h
  · exact h.trans ((foldl _ freshWord _ _).trans (pokeBytes ..))

theorem nocBytes (s : State) (ni len : Nat) : AccessOnly s (nocBytes s ni len) := ofMem ..

/-- What a read over the network leaves behind. -/
theorem nocRead (s : State) (ni a n : Nat) : AccessOnly s (nocRead s ni a n).1 := by
  have h := nocGate s ni a
  unfold Machine.nocRead
  split
  · rename_i t heq
    rw [heq] at h
    split
    · dsimp only; exact h.trans (nocFailure ..)
    · exact h.trans ((ite (refl t) (snoop ..)).trans ((nocBytes ..).trans (memRead ..)))
  · rename_i heq; rw [heq] at h; exact h

theorem collide (s : State) (ni a : Nat) : AccessOnly s (collide s ni a) := by
  unfold Machine.collide
  split
  · exact (countField ..).trans (nocFailure ..)
  · exact refl s

theorem collideTimes (s : State) (ni a k : Nat) : AccessOnly s (collideTimes s ni a k) := by
  induction k with
  | zero => exact refl s
  | succ k ih => exact ih.trans (collide ..)

theorem writePieces (ni : Nat) (inBank : Bool) (fuel : Nat) (s : State) (a : Nat) (bs : List Byte) (hits : List Nat) :
    AccessOnly s (writePieces ni inBank fuel s a bs hits).1 := by
  induction fuel generalizing s a bs hits with
  | zero => exact refl s
  | succ n ih =>
    unfold Machine.writePieces
    split
    · exact refl s
    · dsimp only
      generalize (if inBank = true then hits.headD 0 else 0) = c
      refine trans ?_ (ih ..)
      split
      · dsimp only; exact nocFailure ..
      · split
        · dsimp only; exact collideTimes ..
        · exact (collideTimes ..).trans ((ite (refl _) ((snoop ..).trans (loseReservation ..))).trans (memWrite ..))

/-- What a write over the network can change. -/
theorem nocWrite (s : State) (ni a : Nat) (bs : List Byte) (hits : List Nat) :
    AccessOnly s (nocWrite s ni a bs hits).1 := by
  have h := nocGate s ni a
  unfold Machine.nocWrite
  dsimp only
  split
  · rename_i t heq
    rw [heq] at h
    split
    · dsimp only; exact h.trans (nocFailure ..)
    · exact h.trans ((nocBytes ..).trans (writePieces ..))
  · rename_i heq; rw [heq] at h; exact h

/-- What a Pilot's write to a bank can change. -/
theorem pilotBankWrite (s : State) (a : Nat) (bs : List Byte) (collided : Nat) :
    AccessOnly s (pilotBankWrite s a bs collided).1 := by
  unfold Machine.pilotBankWrite
  dsimp only
  split
  · exact nocWrite ..
  · exact (nocWrite ..).trans (ofMem ..)

theorem homeRead (s : State) (b a n : Nat) : AccessOnly s (homeRead s b a n).1 := memRead ..

/-- What a home master's write can change. -/
theorem homeWrite (s : State) (b a : Nat) (bs : List Byte) : AccessOnly s (homeWrite s b a bs).1 :=
  (ite (refl s) (loseReservation ..)).trans (memWrite ..)

/-! What stays. -/

section Fields
variable {s t : State} (h : AccessOnly s t)
include h

theorem mode : t.mode = s.mode := by obtain ⟨_, _, _, _, _, rfl⟩ := h; rfl
theorem hx1 : t.hx1 = s.hx1 := by obtain ⟨_, _, _, _, _, rfl⟩ := h; rfl
theorem now : t.now = s.now := by obtain ⟨_, _, _, _, _, rfl⟩ := h; rfl
theorem reply : t.reply = s.reply := by obtain ⟨_, _, _, _, _, rfl⟩ := h; rfl
theorem out : t.out = s.out := by obtain ⟨_, _, _, _, _, rfl⟩ := h; rfl
theorem pending : t.pending = s.pending := by obtain ⟨_, _, _, _, _, rfl⟩ := h; rfl
theorem arr : t.arr = s.arr := by obtain ⟨_, _, _, _, _, rfl⟩ := h; rfl
theorem helm : t.helm = s.helm := by obtain ⟨_, _, _, _, _, rfl⟩ := h; rfl
theorem ldr : t.ldr = s.ldr := by obtain ⟨_, _, _, _, _, rfl⟩ := h; rfl
theorem ttb : t.ttb = s.ttb := by obtain ⟨_, _, _, _, _, rfl⟩ := h; rfl
theorem que : t.que = s.que := by obtain ⟨_, _, _, _, _, rfl⟩ := h; rfl
theorem fry : t.fry = s.fry := by obtain ⟨_, _, _, _, _, rfl⟩ := h; rfl
theorem fab : t.fab = s.fab := by obtain ⟨_, _, _, _, _, rfl⟩ := h; rfl
theorem wdn : t.wdn = s.wdn := by obtain ⟨_, _, _, _, _, rfl⟩ := h; rfl
theorem dbg : t.dbg = s.dbg := by obtain ⟨_, _, _, _, _, rfl⟩ := h; rfl
theorem gpr : t.plt.gpr = s.plt.gpr := by obtain ⟨_, _, _, _, _, rfl⟩ := h; rfl
theorem pc : t.plt.pc = s.plt.pc := by obtain ⟨_, _, _, _, _, rfl⟩ := h; rfl
theorem plt : t.plt = { s.plt with resv := t.plt.resv } := by obtain ⟨_, _, _, _, _, rfl⟩ := h; rfl
theorem flt : t.flt = { s.flt with reports := t.flt.reports } := by obtain ⟨_, _, _, _, _, rfl⟩ := h; rfl

end Fields

end AccessOnly

end Sys2Proof.Machine
end

