-- ==== Sys2Proof/Laws/Fabric.lean ====
section
/-!
SUPPORT. The passage of time: what a nanosecond can change.
-/
set_option autoImplicit false
namespace Sys2Proof.Machine

/-- From s to t only the fabric changed. -/
def FabricOnly (s t : State) : Prop := ∃ fab, t = { s with fab := fab }

theorem FabricOnly.refl (s : State) : FabricOnly s s := ⟨s.fab, rfl⟩

theorem FabricOnly.trans {s t u : State} (h : FabricOnly s t) (k : FabricOnly t u) : FabricOnly s u := by
  obtain ⟨_, rfl⟩ := h
  obtain ⟨f, rfl⟩ := k
  exact ⟨f, rfl⟩

theorem FabricOnly.foldl {α : Type} (f : State → α → State) (hf : ∀ s x, FabricOnly s (f s x)) (l : List α) (s : State) :
    FabricOnly s (l.foldl f s) := by
  induction l generalizing s with
  | nil => exact .refl s
  | cons x l ih => exact (hf s x).trans (ih _)

theorem setRegion_only (s : State) (r : Nat) (x : Region) : FabricOnly s (setRegion s r x) := ⟨_, rfl⟩

theorem useRam_only (old s : State) (n : Nat) : FabricOnly s (useRam old s n) := by
  unfold useRam
  split
  · exact ⟨_, rfl⟩
  · exact .refl s

theorem regionTick_only (old s : State) (r : Nat) : FabricOnly s (regionTick old s r) := by
  unfold regionTick
  split
  · exact (setRegion_only ..).trans (.foldl _ (useRam_only old) ..)
  · exact .refl s

/-- A nanosecond of the fabric changes the fabric alone. -/
theorem fabricTick_only (s : State) : FabricOnly s (fabricTick s) :=
  (FabricOnly.foldl _ (regionTick_only s) ..).trans ⟨_, rfl⟩

/-- A nanosecond advances the clock and CYCLO, may begin the flash write of a changed tag area, and changes nothing else
outside the fabric. -/
theorem clockTick_only (s : State) : ∃ fab busy,
    clockTick s = { s with now := s.now + 1,
                           plt := if s.hx1 ∧ s.plt.halted = false then { s.plt with cyc := s.plt.cyc + 1 } else s.plt,
                           wdn := { s.wdn with tagBusy := busy }, fab := fab } := by
  unfold clockTick
  generalize (if s.hx1 ∧ s.plt.halted = false then { s.plt with cyc := s.plt.cyc + 1 } else s.plt) = p
  obtain ⟨fab, h⟩ := fabricTick_only { s with now := s.now + 1, plt := p }
  rw [h]
  unfold startTagWrite
  split
  · exact ⟨fab, _, rfl⟩
  · exact ⟨fab, s.wdn.tagBusy, rfl⟩

end Sys2Proof.Machine
end

