-- ==== Sys2Proof/Laws/Hash.lean ====
section
/-!
SUPPORT. Lengths of a SHA-256 digest and of an HMAC.
-/
set_option autoImplicit false
namespace Sys2Proof.Machine

theorem hashBlocks_length (n : Nat) : ∀ (h : List Word) (l : List Byte), h.length = 8 →
  (hashBlocks n h l).length = 8 := by
  induction n with
  | zero => exact fun _ _ h => h
  | succ n ih => exact fun _ _ _ => ih _ _ rfl

theorem beBytes_length (w : Word) : (beBytes w).length = 4 := by simp [beBytes]

theorem flatMap_beBytes_length (l : List Word) : (l.flatMap beBytes).length = 4 * l.length := by
  induction l with
  | nil => rfl
  | cons w t ih => rw [List.flatMap_cons, List.length_append, ih, List.length_cons, beBytes_length]; omega

theorem sha256_length (l : List Byte) : (sha256 l).length = 32 := by
  rw [sha256, flatMap_beBytes_length, hashBlocks_length _ _ _ rfl]

theorem hmacSha256_length (k m : List Byte) : (hmacSha256 k m).length = 32 := sha256_length _

end Sys2Proof.Machine
end

