-- ==== Sys2Proof/Laws/Link.lean ====
section
/-!
SUPPORT. The link layer of a Ferry port: what sending on a port can change.
-/
set_option autoImplicit false
namespace Sys2Proof.Machine

/-- From s to t only port n changed, flits left, and free values were used. -/
def SentOn (n : BitVec 2) (s t : State) : Prop :=
  ∃ p outs free, t = { s with fry := { s.fry with ports := s.fry.ports.set n.toNat p n.isLt }, out := s.out ++ outs, free := free }

theorem SentOn.refl (n : BitVec 2) (s : State) : SentOn n s s := ⟨portAt s n, [], s.free, by simp [portAt]⟩

theorem SentOn.trans {n : BitVec 2} {s t u : State} (h : SentOn n s t) (k : SentOn n t u) : SentOn n s u := by
  obtain ⟨_, a, _, rfl⟩ := h
  obtain ⟨q, b, f, rfl⟩ := k
  exact ⟨q, a ++ b, f, by simp [Vector.set_set]⟩

theorem setPort_sentOn (s : State) (n : BitVec 2) (p : PortState) : SentOn n s (setPort s n p) :=
  ⟨p, [], s.free, by simp [setPort, updFry]⟩

theorem putFlit_sentOn (s : State) (n : BitVec 2) (seq : Byte) (v : BitVec 1920) (m : LinkMsg) :
    SentOn n s (putFlit s n seq v m) :=
  ⟨_, _, s.free, rfl⟩

theorem transmit_sentOn (s : State) (n : BitVec 2) (m : LinkMsg) : SentOn n s (transmit s n m) :=
  SentOn.trans (t := usedFree s) ⟨portAt s n, [], s.free + 1, by simp [portAt, usedFree]⟩
    ((setPort_sentOn ..).trans (putFlit_sentOn ..))

theorem pump_sentOn (k : Nat) (s : State) (n : BitVec 2) : SentOn n s (pump k s n) := by
  induction k generalizing s with
  | zero => exact .refl n s
  | succ k ih =>
    unfold pump
    split
    · exact .refl n s
    · exact (transmit_sentOn ..).trans (ih _)

/-- A message given to a port changes that port alone (R431). -/
theorem sendOn_sentOn (s : State) (n : BitVec 2) (m : LinkMsg) : SentOn n s (sendOn s n m) := by
  simp only [sendOn]
  split
  · exact (setPort_sentOn ..).trans (pump_sentOn ..)
  · exact .refl n s

/-- A port that carries no message of the class drops it (R424). -/
theorem sendOn_dropped {s : State} {n : BitVec 2} {m : LinkMsg} (h : portCarries (portAt s n) m.cls = false) :
    sendOn s n m = s := by
  simp [sendOn, h]

/-- Every other port keeps its state. -/
theorem SentOn.portAt_ne {n q : BitVec 2} {s t : State} (h : SentOn n s t) (hq : n ≠ q) : portAt t q = portAt s q := by
  obtain ⟨_, _, _, rfl⟩ := h
  exact Vector.getElem_set_ne n.isLt q.isLt fun e => hq (BitVec.eq_of_toNat_eq e)

/-- From s to t only ports changed, flits left, and free values were used. -/
def LinkOnly (s t : State) : Prop :=
  ∃ ports outs free, t = { s with fry := { s.fry with ports := ports }, out := s.out ++ outs, free := free }

theorem LinkOnly.refl (s : State) : LinkOnly s s := ⟨s.fry.ports, [], s.free, by simp⟩

theorem LinkOnly.trans {s t u : State} (h : LinkOnly s t) (k : LinkOnly t u) : LinkOnly s u := by
  obtain ⟨_, a, _, rfl⟩ := h
  obtain ⟨q, b, f, rfl⟩ := k
  exact ⟨q, a ++ b, f, by simp⟩

theorem SentOn.only {n : BitVec 2} {s t : State} : SentOn n s t → LinkOnly s t := fun ⟨_, a, f, h⟩ => ⟨_, a, f, h⟩

/-- A message on several ports changes nothing beside the ports, what has left, and the free values used. -/
theorem sendAll_only (s : State) (l : List (BitVec 2)) (m : LinkMsg) : LinkOnly s (sendAll s l m) := by
  unfold sendAll
  induction l generalizing s with
  | nil => exact .refl s
  | cons n l ih => exact (sendOn_sentOn s n m).only.trans (ih _)

theorem sendToward_only (s : State) (node : BitVec 16) (m : LinkMsg) : LinkOnly s (sendToward s node m) := by
  unfold sendToward
  split
  · exact (sendOn_sentOn ..).only
  · exact .refl s

end Sys2Proof.Machine
end

