-- ==== Sys2Proof/Laws/Tables.lean ====
section
/-!
SUPPORT. The named entries of State: what an entry reads as after an entry of the same table is stored, the fields of
registers, and the Pilots' registers, results in flight and save sets.
-/
set_option autoImplicit false
namespace Sys2Proof.Machine

/-! ## Fields of registers -/

theorem testBit_mask (n lo i : Nat) : ((2 ^ n - 1) <<< lo).testBit i = decide (lo ≤ i ∧ i < lo + n) := by
  rw [Nat.testBit_shiftLeft, Nat.testBit_two_pow_sub_one, Bool.eq_iff_iff]
  simp only [Bool.and_eq_true, decide_eq_true_eq, ge_iff_le]
  omega

/-- Each bit of a word whose bits [hi:lo] were replaced. -/
theorem bit_setBits (w : Word) (hi lo v i : Nat) :
    bit (setBits w hi lo v) i = if lo ≤ i ∧ i < lo + (hi + 1 - lo) ∧ i < 32 then v.testBit (i - lo) else bit w i := by
  have hm : (BitVec.ofNat 32 ((2 ^ (hi + 1 - lo) - 1) <<< lo)).getLsbD i =
      (decide (i < 32) && decide (lo ≤ i ∧ i < lo + (hi + 1 - lo))) := by rw [BitVec.getLsbD_ofNat, testBit_mask]
  have hv : (BitVec.ofNat 32 (v <<< lo)).getLsbD i = (decide (i < 32) && (decide (i ≥ lo) && v.testBit (i - lo))) := by
    rw [BitVec.getLsbD_ofNat, Nat.testBit_shiftLeft]
  simp only [bit, setBits, BitVec.getLsbD_or, BitVec.getLsbD_and, BitVec.getLsbD_not, hm, hv]
  by_cases h32 : i < 32
  · by_cases h : lo ≤ i ∧ i < lo + (hi + 1 - lo)
    · rw [if_pos ⟨h.1, h.2, h32⟩, decide_eq_true h32, decide_eq_true h, decide_eq_true h.1]; simp
    · rw [if_neg fun k => h ⟨k.1, k.2.1⟩, decide_eq_true h32, decide_eq_false h]; simp
  · rw [if_neg fun k => h32 k.2.2, BitVec.getLsbD_of_ge w i (by omega), decide_eq_false h32]; simp

/-- A flag that was set reads 1, and every other bit as before. -/
theorem getFlag_setFlag (s : State) (a b i j : Nat) (hi : i < 32) :
    getFlag (setFlag s a i) b j = if b = a ∧ j = i then true else getFlag s b j := by
  rw [getFlag, getFlag, setFlag, setField, reg_setReg]
  by_cases hb : b = a
  · subst hb
    rw [if_pos rfl, bit_setBits]
    by_cases hj : j = i
    · subst hj; rw [if_pos (by omega), if_pos ⟨rfl, rfl⟩]; simp
    · rw [if_neg (by omega), if_neg fun h => hj h.2]
  · rw [if_neg hb, if_neg fun h => hb h.1]

theorem reg_setField (s : State) (a b hi lo v : Nat) :
    reg (setField s a hi lo v) b = if b = a then setBits (reg s a) hi lo v else reg s b := reg_setReg ..

theorem reg_setFlag (s : State) (a b i : Nat) :
    reg (setFlag s a i) b = if b = a then setBits (reg s a) i i 1 else reg s b := reg_setReg ..

theorem reg_countField (s : State) (a b hi lo n : Nat) :
    reg (countField s a hi lo n) b =
      if b = a then setBits (reg s a) hi lo (satAdd (getField s a hi lo) n (2 ^ (hi + 1 - lo) - 1)) else reg s b :=
  reg_setReg ..

/-! ## Entries of tables -/

@[simp] theorem pairOf_setPair (s : State) (a b : Nat) (p : Pair) : pairOf (setPair s a p) b = if b = a then p else pairOf s b :=
  storeGet_storePut ..

@[simp] theorem msixOf_setMsix (s : State) (a b : Nat) (e : MsixEntry) :
    msixOf (setMsix s a e) b = if b = a then e else msixOf s b := storeGet_storePut ..

@[simp] theorem blockQ_setBlock (s : State) (a b : Nat) (q : QBlock) : blockQ (setBlock s a q) b = if b = a then q else blockQ s b :=
  storeGet_storePut ..

@[simp] theorem regionOf_setRegion (s : State) (a b : Nat) (r : Region) :
    regionOf (setRegion s a r) b = if b = a then r else regionOf s b := storeGet_storePut ..

@[simp] theorem descAt_setDesc (s : State) (a b : Nat) (d : Word) :
    descAt (setDesc s a d) b = if b = a then d &&& descMask else descAt s b := storeGet_storePut ..

@[simp] theorem portAt_setPort (s : State) (a b : BitVec 2) (p : PortState) :
    portAt (setPort s a p) b = if b = a then p else portAt s b := by
  simp only [portAt, setPort, updFry, Vector.getElem_set, BitVec.toNat_inj, eq_comm]

@[simp] theorem camAt_setCam (s : State) (a b : BitVec 2) (c : CamPort) :
    camAt (setCam s a c) b = if b = a then c else camAt s b := by
  simp only [camAt, setCam, updFab, Vector.getElem_set, BitVec.toNat_inj, eq_comm]

theorem estAt_setEst (s : State) (a b : Nat) (e : EStat) (h : a < s.ttb.est.length) :
    estAt (setEst s a e) b = if b = a then e else estAt s b := by
  simp only [estAt, setEst, updTtb, List.getElem?_set]
  by_cases hb : b = a
  · subst hb; simp [h]
  · rw [if_neg (Ne.symm hb), if_neg hb]

/-! ## The Pilots' registers -/

@[simp] theorem gprAt_zero (s : State) : gprAt s 0 = 0 := rfl

/-- g0 reads 0 and discards what is written to it (R306). -/
@[simp] theorem gprAt_setGpr (s : State) (a b : BitVec 5) (v : Word) :
    gprAt (setGpr s a v) b = if b = a ∧ b ≠ 0 then v else gprAt s b := by
  by_cases hb : b = 0
  · subst hb; rw [if_neg fun h => h.2 rfl]; rfl
  · by_cases ha : a = 0
    · subst ha; rw [if_neg fun h => hb h.1]; rfl
    · have hg : (setGpr s a v).plt.gpr = s.plt.gpr.set a.toNat v a.isLt := by rw [setGpr, if_neg ha]; rfl
      simp only [gprAt, hb, hg, Vector.getElem_set, BitVec.toNat_inj, if_false, ne_eq, not_false_eq_true, and_true,
        eq_comm]

/-- From s to t nothing changed but the general registers, FCSR and the results in flight. -/
def LandOnly (s t : State) : Prop :=
  ∃ gpr fcsr flights, t = { s with plt := { s.plt with gpr := gpr, fcsr := fcsr, flights := flights } }

namespace LandOnly

theorem refl (s : State) : LandOnly s s := ⟨_, _, _, rfl⟩

theorem trans {s t u : State} (h : LandOnly s t) (k : LandOnly t u) : LandOnly s u := by
  obtain ⟨_, _, _, rfl⟩ := h
  obtain ⟨a, b, c, rfl⟩ := k
  exact ⟨a, b, c, rfl⟩

theorem foldl {α : Type} (f : State → α → State) (hf : ∀ s x, LandOnly s (f s x)) (l : List α) (s : State) :
    LandOnly s (l.foldl f s) := by
  induction l generalizing s with
  | nil => exact refl s
  | cons x t ih => exact (hf s x).trans (ih _)

theorem setGpr (s : State) (r : BitVec 5) (v : Word) : LandOnly s (setGpr s r v) := by
  unfold Machine.setGpr
  split
  · exact refl s
  · exact ⟨_, s.plt.fcsr, s.plt.flights, rfl⟩

theorem setGprs (s : State) (l : List (BitVec 5 × Word)) : LandOnly s (setGprs s l) :=
  foldl (fun s (p : BitVec 5 × Word) => Machine.setGpr s p.1 p.2) (fun s p => setGpr s p.1 p.2) l s

theorem raiseFlags (s : State) (fl : BitVec 6) : LandOnly s (raiseFlags s fl) := ⟨s.plt.gpr, _, s.plt.flights, rfl⟩

theorem landFlight (s : State) (f : Flight) : LandOnly s (landFlight s f) := (setGprs ..).trans (raiseFlags ..)

theorem ageWhere (s : State) (t : Flight → Bool) : LandOnly s (ageWhere s t) :=
  trans ⟨s.plt.gpr, s.plt.fcsr, _, rfl⟩ (foldl _ (fun s _ => landFlight s _) _ _)

theorem age (s : State) : LandOnly s (age s) := ageWhere ..

theorem agePclk (n : Nat) (s : State) : LandOnly s (agePclk s n) := by
  induction n generalizing s with
  | zero => exact refl s
  | succ n ih => exact (ageWhere ..).trans (ih _)

theorem drain (n : Nat) (s : State) : LandOnly s (drain s n) := by
  induction n generalizing s with
  | zero => exact refl s
  | succ n ih => exact (age _).trans (ih _)

theorem drained (s : State) : LandOnly s (drained s) := drain ..

theorem awaitUnit (s : State) (k : FlightKind) : LandOnly s (awaitUnit s k) := by
  unfold Machine.awaitUnit
  split
  · exact agePclk ..
  · exact refl s

end LandOnly

/-! ## Entry to a level (R366) -/

theorem saveSet_putSaveSet (s : State) (n : Nat) (x : SaveSet) : saveSet (putSaveSet s n x) n = x := by
  unfold saveSet putSaveSet updPlt
  split
  · simp_all
  · split <;> simp_all

/-- What an entry to a level saves, and where the Pilots go. -/
theorem enterLevel_entry (s : State) (t : Nat) (savePc cause val : Word) (interrupt : Bool) :
    let u := enterLevel s t savePc cause val interrupt
    saveSet u t = { pc := savePc, st := stWord (drained s), rsp := s.plt.rsp, cause := cause, val := val } ∧
      u.plt.pl = BitVec.ofNat 2 t ∧ u.plt.ie = false ∧ u.plt.resv = none ∧ u.plt.fq = [] ∧ u.plt.idle = false ∧
      u.plt.pc = (s.plt.vbase &&& 0xFFFFF000) + BitVec.ofNat 32 (0x100 * t + if interrupt then 0x80 else 0) := by
  have h := LandOnly.drained s
  unfold enterLevel
  generalize drained s = d at h ⊢
  obtain ⟨_, _, _, rfl⟩ := h
  refine ⟨?_, rfl, rfl, rfl, rfl, rfl, ?_⟩
  · exact saveSet_putSaveSet _ t _
  · simp only [putSaveSet, updPlt]
    split
    · rfl
    · split <;> rfl

end Sys2Proof.Machine
end

