-- ==== Sys2Proof/Laws/Planes.lean ====
section
/-!
SUPPORT. Reads and writes of planes: what a read leaves behind, and which plane a write changes.
-/
set_option autoImplicit false
namespace Sys2Proof.Machine

/-- From s to t nothing changed but the reports to the fault manager. -/
def ReportOnly (s t : State) : Prop := ∃ reports, t = { s with flt := { s.flt with reports := reports } }

theorem peccEvents_report (l : List (Nat × Damage)) (merge : Bool) (s : State) :
    ReportOnly s (l.foldl (fun s p => peccEvent s p.1 p.2 merge) s) := by
  induction l generalizing s with
  | nil => exact ⟨_, rfl⟩
  | cons x t ih =>
    obtain ⟨r, hr⟩ := ih (peccEvent s x.1 x.2 merge)
    exact ⟨r, hr⟩

/-- A read of a plane reports its damaged words and changes nothing else (R46, R47). -/
theorem planeReadIn_report (s : State) (plane : Nat) (scope : Plane) : ReportOnly s (planeReadIn s plane scope).1 :=
  peccEvents_report ..

theorem planeRead_report (s : State) (plane : Nat) : ReportOnly s (planeRead s plane).1 := peccEvents_report ..

/-- A write of a plane changes the plane, the damage of its words and the reports, and nothing else. -/
theorem planeWriteIn_frame (s : State) (plane : Nat) (new mask scope : Plane) :
    ∃ reports damage, (planeWriteIn s plane new mask scope).1 = { s with
      flt := { s.flt with reports := reports }
      arr := { s.arr with
        planes := storePut 0 s.arr.planes plane (mergePlane (mask &&& livePes s) new (planeBits s plane)),
        damage := damage } } := by
  obtain ⟨r, hr⟩ := peccEvents_report (damagedWords s plane scope) true s
  refine ⟨r, (planeWriteIn s plane new mask scope).1.arr.damage, ?_⟩
  unfold planeWriteIn
  rw [hr]
  rfl

/-- The bits of a plane after a write (R48, R49, R57). -/
theorem planeBits_planeWriteIn (s : State) (a b : Nat) (new mask scope : Plane) :
    planeBits (planeWriteIn s a new mask scope).1 b =
      if b = a then mergePlane (mask &&& livePes s) new (planeBits s a) else planeBits s b := by
  obtain ⟨r, d, h⟩ := planeWriteIn_frame s a new mask scope
  rw [h]
  exact storeGet_storePut ..

theorem planeBits_planeWrite (s : State) (a b : Nat) (new mask : Plane) :
    planeBits (planeWrite s a new mask).1 b =
      if b = a then mergePlane (mask &&& livePes s) new (planeBits s a) else planeBits s b :=
  planeBits_planeWriteIn ..

end Sys2Proof.Machine
end

