-- ==== Sys2Proof/Machine/LibraryInt.lean ====
section
/-!
DEFINITION. The integer routines of the Freniusk library (05): what each leaves in a PE, and its time in ACLK.
The routines are microcode of the firmware image, so no command calls one; these functions say what a kernel that
calls them is to leave. A value is the integer that a PE's variable holds as its descriptor extends it (R147, R148).
-/
namespace Sys2Proof.Machine.Library

/-- The low `w` bits of an integer. -/
def pattern (w : Nat) (v : Int) : Nat := (v % 2 ^ w).toNat

/-- The value of a w-bit pattern in a signed or unsigned variable. -/
def valueOf (sg : Bool) (w n : Nat) : Int :=
  if sg ∧ 0 < w ∧ 2 ^ (w - 1) ≤ n then (n : Int) - 2 ^ w else n

/-- What a destination of declared width `w` keeps of a result (R166). -/
def wrapInt (sg : Bool) (w : Nat) (v : Int) : Int := valueOf sg w (pattern w v)

/-- The limits of a destination. -/
def lowest (sg : Bool) (w : Nat) : Int := if sg then -(2 ^ (w - 1)) else 0
def highest (sg : Bool) (w : Nat) : Int := if sg then 2 ^ (w - 1) - 1 else 2 ^ w - 1

/-- A result clamped to the destination's range (R167). -/
def clampInt (sg : Bool) (w : Nat) (v : Int) : Int := max (lowest sg w) (min v (highest sg w))

/-! ## Add, subtract, carry chains (R167, R168) -/

def addI (sg : Bool) (w : Nat) (a b : Int) : Int := wrapInt sg w (a + b)
def subI (sg : Bool) (w : Nat) (a b : Int) : Int := wrapInt sg w (a - b)
def satAddI (sg : Bool) (w : Nat) (a b : Int) : Int := clampInt sg w (a + b)
def satSubI (sg : Bool) (w : Nat) (a b : Int) : Int := clampInt sg w (a - b)

/-- ADDC over lr result planes: the sum, and the carry out of bit w − 1, which is 0 where lr < w (R168). R167 alone
would give 1 for −1 + −1 of signed operands with lr < w: the model follows R168 (DESIGN CHOICE, log 168). -/
def addCI (sg : Bool) (w lr : Nat) (a b : Int) (cin : Bool) : Int × Bool :=
  (wrapInt sg w (a + b + cin.toNat),
   decide (w ≤ lr) && decide (2 ^ w ≤ pattern w a + pattern w b + cin.toNat))

/-- SUBC: the difference, and the borrow out of bit w − 1. -/
def subCI (sg : Bool) (w : Nat) (a b : Int) (bin : Bool) : Int × Bool :=
  (wrapInt sg w (a - b - bin.toNat), decide (pattern w a < pattern w b + bin.toNat))

/-! ## Compare, minimum, maximum, absolute value (R169–R171) -/

def ltI (a b : Int) : Int := if a < b then 1 else 0
def gtI (a b : Int) : Int := if b < a then 1 else 0
def leI (a b : Int) : Int := if a ≤ b then 1 else 0
def geI (a b : Int) : Int := if b ≤ a then 1 else 0
def eqI (a b : Int) : Int := if a = b then 1 else 0
def neI (a b : Int) : Int := if a = b then 0 else 1
def minI (sg : Bool) (w : Nat) (a b : Int) : Int := wrapInt sg w (min a b)
def maxI (sg : Bool) (w : Nat) (a b : Int) : Int := wrapInt sg w (max a b)
def absI (sg : Bool) (w : Nat) (a : Int) : Int := wrapInt sg w a.natAbs

/-! ## Logic, moves, shifts (R172, R173) -/

def movI (sg : Bool) (w : Nat) (a : Int) : Int := wrapInt sg w a
def andI (sg : Bool) (w : Nat) (a b : Int) : Int := valueOf sg w (pattern w a &&& pattern w b)
def andnI (sg : Bool) (w : Nat) (a b : Int) : Int := valueOf sg w (pattern w a &&& (2 ^ w - 1 - pattern w b))
def orI (sg : Bool) (w : Nat) (a b : Int) : Int := valueOf sg w (pattern w a ||| pattern w b)
def xorI (sg : Bool) (w : Nat) (a b : Int) : Int := valueOf sg w (pattern w a ^^^ pattern w b)
def notI (sg : Bool) (w : Nat) (a : Int) : Int := valueOf sg w (2 ^ w - 1 - pattern w a)
def shlI (sg : Bool) (w : Nat) (a : Int) (n : Nat) : Int := wrapInt sg w (a * 2 ^ n)
/-- SHR: a shift by n ≥ w leaves 0, or the sign of a signed source in every bit (R172). -/
def shrI (sg : Bool) (w : Nat) (a : Int) (n : Nat) : Int :=
  if w ≤ n ∧ n ≠ 0 then (if a < 0 then wrapInt sg w (-1) else 0) else wrapInt sg w (a / 2 ^ n)

/-- VSHL and VSHR shift a by the PE's own amount (R173). -/
def vshlI (sg : Bool) (w : Nat) (a : Int) (n : Nat) : Int := shlI sg w a n
def vshrI (sg : Bool) (w : Nat) (a : Int) (n : Nat) : Int := shrI sg w (wrapInt sg w a) n

/-! ## Multiply, divide (R174–R179) -/

def mulI (sg : Bool) (w : Nat) (a b : Int) : Int := wrapInt sg w (a * b)

/-- The two words of MULW hold at most 128 bits together (R176). -/
def mulwOk (wlo whi : Nat) : Bool := decide (wlo + whi ≤ 128)

/-- MULW: the low word's bits as a number, and the high word as a value of its own signedness (R176). -/
def mulwI (sg : Bool) (wlo whi : Nat) (a b : Int) : Int × Int :=
  let p := pattern (wlo + whi) (a * b)
  (((p % 2 ^ wlo : Nat) : Int), valueOf sg whi (p / 2 ^ wlo))

/-- DIV and REM: quotient and remainder; a zero divisor gives all ones and the dividend (R177–R179). -/
def divI (sg : Bool) (wq wr : Nat) (a b : Int) : Int × Int :=
  if b = 0 then (if sg then -1 else 2 ^ wq - 1, wrapInt sg wr a)
  else (wrapInt sg wq (Int.tdiv a b), wrapInt sg wr (Int.tmod a b))

/-! ## Counts (R182) -/

/-- Number of 1 bits below bit w. -/
def ones : Nat → Nat → Nat
  | 0, _ => 0
  | w + 1, n => n % 2 + ones w (n / 2)

/-- POPC and HAM of sources of declared width ws. -/
def popcI (w ws : Nat) (a : Int) : Int := wrapInt false w (ones ws (pattern ws a))
def hamI (w ws : Nat) (a b : Int) : Int := wrapInt false w (ones ws (pattern ws a ^^^ pattern ws b))

/-- A masked form keeps the destination's value where M is 0 (R183). -/
def maskedI (m : Bool) (plain old : Int) : Int := if m then plain else old

/-- A routine's result holds where it fits in the planes that the routine writes, as it always does unless the
signedness of sources and destination differs (R165). -/
def fitsIn (sg : Bool) (lr : Nat) (v : Int) : Bool := decide (wrapInt sg lr v = v)

/-! ## Offsets written (R167–R182) -/

def lrAnd (sg : Bool) (wd la lb : Nat) : Nat := min wd (if sg then max la lb else min la lb)
def lrAndn (sg : Bool) (wd la lb : Nat) : Nat := min wd (if sg then max la lb else la)
def lrOr (wd la lb : Nat) : Nat := min wd (max la lb)
def lrNot (sg : Bool) (wd la : Nat) : Nat := if sg then min wd la else wd
def lrAbs (sgDst : Bool) (wd la : Nat) : Nat := min wd (if sgDst then la + 1 else la)
def lrShl (wd la n : Nat) : Nat := min wd (la + n)
def lrShr (sg : Bool) (wd la n : Nat) : Nat := min wd (if sg then max 1 (la - n) else la - n)

/-! ## Times in ACLK (R162–R184) -/

def lrOf (wd la lb : Nat) : Nat := min wd (max la lb + 1)
def lmOf (la lb : Nat) : Nat := max 1 (max la lb)
/-- k: the CLEN of a body microword that reads two sources (R163). -/
def kOf (sg : Bool) : Nat := if sg then 2 else 1

def timeAdd (sg : Bool) (wd la lb : Nat) : Nat := kOf sg * lrOf wd la lb + 4
def timeAddc (sg : Bool) (wd la lb : Nat) : Nat := kOf sg * lrOf wd la lb + 5
def timeSub (sg g : Bool) (wd la lb : Nat) : Nat :=
  if sg then 2 * lrOf wd la lb + 4 else (if g then wd else min wd (lmOf la lb)) + 14
def timeSubc (sg g : Bool) (wd la lb : Nat) : Nat := timeSub sg g wd la lb + 1
def timeSatAdd (sg g : Bool) (wd la lb : Nat) : Nat :=
  match sg, g with
  | false, false => lrOf wd la lb + 14
  | false, true => 2 * wd + 14
  | true, false => 2 * lrOf wd la lb + 14
  | true, true => 2 * lrOf wd la lb + wd + 14
def timeSatSub (sg g : Bool) (wd la lb : Nat) : Nat :=
  match sg, g with
  | false, false => min wd (lmOf la lb) + 14
  | false, true => 2 * min wd (lmOf la lb) + 14
  | true, false => 2 * lrOf wd la lb + 14
  | true, true => 2 * lrOf wd la lb + wd + 14
def timeOrder (sg : Bool) (la lb : Nat) : Nat := kOf sg * lmOf la lb + if sg then 5 else 4
def timeEqual (sg : Bool) (la lb : Nat) : Nat := kOf sg * lmOf la lb + 4
def timeMinMax (sg : Bool) (wd la lb : Nat) : Nat :=
  kOf sg * (lmOf la lb + min wd (max la lb)) + if sg then 7 else 5
def timeMov (wd la : Nat) : Nat := max 1 (min wd la) + 4
/-- ABS of an unsigned source is MOV (R171). -/
def timeAbs (sgSrc sgDst : Bool) (wd la : Nat) : Nat :=
  if sgSrc then (if sgDst then min wd (la + 1) else min wd la) + 5 else timeMov wd la
def timeLogic (sg : Bool) (lr : Nat) : Nat := kOf sg * max 1 lr + 4
def timeNot (sg : Bool) (wd la : Nat) : Nat := (if sg then min wd la else wd) + 4
def timeShl (wd la n : Nat) : Nat :=
  if n = 0 then timeMov wd la else min n wd + max 1 (min wd (la + n) - min n wd) + 5
def timeShr (sg : Bool) (wd la n : Nat) : Nat :=
  if n = 0 then timeMov wd la else if sg then max 1 (la - n) + 4 else max 1 (la - n) + 4

/-- VSHL and VSHR; `g` lists g_j for j below the live width of the amount (R173). -/
def timeVsh (wd : Nat) (g : List Bool) : Nat :=
  wd + 5 + ((List.range g.length).map fun j =>
    10 + if g.getD j false then (if 2 ^ j < wd then 2 * wd else wd) else 0).sum

/-- The maximal runs of 0 in a list of bits, each as (first, length), from bit j on. -/
def zeroRuns : Nat → List Bool → List (Nat × Nat)
  | _, [] => []
  | j, true :: t => zeroRuns (j + 1) t
  | j, false :: t =>
    match zeroRuns (j + 1) t with
    | (f, n) :: r => if f = j + 1 then (j, n + 1) :: r else (j, 1) :: (f, n) :: r
    | [] => [(j, 1)]

/-- z: the runs that need a refill: all but one that consists of the top bit alone (R174). -/
def refills (g : List Bool) : Nat := ((zeroRuns 0 g).filter fun r => r ≠ (g.length - 1, 1)).length

/-- The steps of MUL: Σ c_j (R174). -/
def mulSteps (wd la : Nat) (g : List Bool) : Nat :=
  ((List.range g.length).map fun j =>
    if g.getD j false then
      let p := 1 + min (la + 1) (wd - j)
      if j + 1 < g.length then max p 9 else p
    else 1).sum

def timeMul (wd la : Nat) (g : List Bool) : Nat :=
  max (la + min wd (la + g.length) + 4) 12 + mulSteps wd la g + 8 * refills g
/-- Signed MUL: the ABS times, the unsigned time on the magnitudes, the negation (R175). -/
def timeMulS (absA absB unsigned_ lr : Nat) : Nat := absA + absB + unsigned_ + lr + 5
def timeMulw (wlo whi la : Nat) (g : List Bool) : Nat :=
  max (la + wlo + whi + 2) 10 + mulSteps (wlo + whi) la g + 8 * refills g
def timeMulwS (absA absB unsigned_ wlo whi : Nat) : Nat := absA + absB + unsigned_ + wlo + whi + 6

/-- Unsigned DIV: q is one more than the highest quotient bit of any active PE, z whether a divisor is 0 (R180). -/
def timeDiv (wq wr la lb q : Nat) (z : Bool) : Nat :=
  let q := if z then la else q
  2 * lb + la + 15 + min wr la + (la - q) * max (lb + 2) 9 + q * (2 * lb + 3) + if z then wq - la else 0
def timeDivS (absA absB unsigned_ lq lrem : Nat) : Nat := absA + absB + unsigned_ + (lq + 5) + (lrem + 5)

/-- The least n with m ≤ 2^n. -/
def log2Up (m : Nat) : Nat := if m ≤ 1 then 0 else Nat.log2 (m - 1) + 1

/-- P(L), the body of POPC and HAM (R182). -/
def popcBody (l : Nat) : Nat :=
  if l ≤ 1 then 1 else 1 + ((List.range (l + 1)).map fun j => if 2 ≤ j then 1 + log2Up (j + 1) else 0).sum
def timePopc (l : Nat) : Nat := popcBody l + 4
/-- Result width of POPC and HAM, for L ≥ 1. -/
def popcWidth (wd l : Nat) : Nat := min wd (Nat.log2 l + 1)

/-- A masked form over Lw written offsets, with the destination's live width Ld (R184). -/
def timeMasked (plain k lw ld : Nat) : Nat := plain + if ld < lw then lw - ld + 3 else k * (ld - lw)

end Sys2Proof.Machine.Library
end

