-- ==== Sys2Proof/Machine/LibraryArray.lean ====
section
/-!
DEFINITION. The routines of the Freniusk library that move and reduce data between PEs (04) and those of the flag
planes (R195): what each leaves, and its time in ACLK. The routines are microcode of the firmware image, so no
command calls one.
-/
namespace Sys2Proof.Machine.Library

/-! ## Shifts and segments (R128, R135, R136) -/

/-- What the PE at coordinate `i` of a row or column of 1024 holds after a shift by k toward higher coordinates
(`up`) or lower ones; `edge` gives what enters past the array's edge. -/
def shiftL (src edge : Nat → Int) (up : Bool) (k i : Nat) : Int :=
  if up then (if i < k then edge i else src (i - k)) else if i + k < 1024 then src (i + k) else edge i

def timeShift (l k : Nat) : Nat := if l = 0 then 1 else l * k + 1

/-- A segment, from its head on: for each PE whether its M is 1, and its value. -/
abbrev Segment := List (Bool × Nat)

/-- The values of the PEs whose M is 1. -/
def active (g : Segment) : List Nat := (g.filter (·.1)).map (·.2)

def segOr (g : Segment) : Bool := (active g).any fun v => decide (v ≠ 0)
def segMin (k : Nat) (g : Segment) : Nat := (active g).foldl min (2 ^ k - 1)
def segMax (g : Segment) : Nat := (active g).foldl max 0
/-- Index of the segment's head, when the segment's first PE stands at coordinate `base`. The table names the first PE
of the segment, and the text builds the routine as SEGMIN of the index, which active PEs alone drive: the model takes
the first PE whose M is 1, and 1023 of a segment without any (DESIGN CHOICE, log 169). -/
def segHead (base : Nat) (g : Segment) : Nat :=
  match g.findIdx? (·.1) with
  | some j => base + j
  | none => 1023
def segRank (base : Nat) (g : Segment) (i : Nat) : Nat := i - segHead base g
/-- Whether some active PE at or before position j of the segment has the bit set. -/
def segPor (g : Segment) (j : Nat) : Bool := segOr (g.take (j + 1))

def timeSegOr : Nat := 5
def timeSegMinMax (k : Nat) : Nat := 1 + 6 * k
def timeSegHead : Nat := timeSegMinMax 10
def timeSegRank : Nat := timeSegHead + 10
def timeSegPor : Nat := timeSegOr + timeSegHead + 11

/-! ## Global minimum and maximum (R145, R146) -/

/-- The result over the values of the active PEs, for a source of live width L. -/
def globalMin (sg : Bool) (l : Nat) (vs : List Int) : Int := vs.foldl min (highest sg l)
def globalMax (sg : Bool) (l : Nat) (vs : List Int) : Int := vs.foldl max (lowest sg l)
def timeGlobal (l : Nat) : Nat := 1 + 11 * l

/-! ## Flag planes (R195): `q` is what the routine leaves in Q, which the manual does not say -/

/-- Plane by plane, six planes from `src` into the six from `dst`. -/
def copySix (dst src : Nat) (p : List (Nat × Plane)) : List (Nat × Plane) :=
  [0, 1, 2, 3, 4, 5].foldl (fun p n => storePut (0 : Plane) p (dst + n) (storeGet (0 : Plane) p (src + n))) p

/-- FCLR. -/
def fclr (q : Plane) (a : ArrayState) : ArrayState :=
  let planes := [4072, 4073, 4074, 4075, 4076, 4077].foldl (fun p n => storePut (0 : Plane) p n 0) a.planes
  { a with planes := planes, q := q }

/-- FSAVE into the variable at `base`, which does not meet the flag planes. -/
def fsave (q : Plane) (base : Nat) (a : ArrayState) : ArrayState :=
  { a with planes := copySix base 4072 a.planes, q := q }

/-- FREST of the planes that such a variable reads at its offsets 0 to 5. -/
def frest (q : Plane) (src : List Plane) (a : ArrayState) : ArrayState :=
  { a with planes := src.zipIdx.foldl (fun p v => storePut (0 : Plane) p (4072 + v.2) v.1) a.planes, q := q }

def timeFlagPlanes : Nat := 7

end Sys2Proof.Machine.Library
end

