-- ==== Sys2Proof/Machine/LibraryFp.lean ====
section
/-!
DEFINITION. The floating-point routines of the Freniusk library (06): what each leaves in a PE whose M is 1, the
flags it sets there, and its time in ACLK. The routines are microcode of the firmware image, so no command calls one.
-/
namespace Sys2Proof.Machine.Library

/-- A format: exponent and fraction bits (06, Formats and operands). -/
structure Format where
  expo : Nat
  frac : Nat
  deriving DecidableEq, Repr

def binary16 : Format := { expo := 5, frac := 10 }
def binary32 : Format := { expo := 8, frac := 23 }
def binary64 : Format := { expo := 11, frac := 52 }

def fmtWidth (f : Format) : Nat := 1 + f.expo + f.frac
def fmtPrec (f : Format) : Nat := f.frac + 1
def fmtBias (f : Format) : Nat := 2 ^ (f.expo - 1) - 1

/-- A delivered pattern with its flags. -/
structure XResult where
  val   : Nat
  flags : BitVec 6
  deriving DecidableEq, Repr

/-! ## Operands: a pattern of the format's width -/

def xExpo (f : Format) (v : Nat) : Nat := v / 2 ^ f.frac % 2 ^ f.expo
def xFrac (f : Format) (v : Nat) : Nat := v % 2 ^ f.frac
def xNeg (f : Format) (v : Nat) : Bool := decide (v / 2 ^ (f.expo + f.frac) % 2 = 1)
def xTop (f : Format) (v : Nat) : Bool := decide (xExpo f v = 2 ^ f.expo - 1)

def xIsNan (f : Format) (v : Nat) : Bool := xTop f v && decide (xFrac f v ≠ 0)
def xIsSnan (f : Format) (v : Nat) : Bool := xIsNan f v && decide (xFrac f v < 2 ^ (f.frac - 1))
def xIsInf (f : Format) (v : Nat) : Bool := xTop f v && decide (xFrac f v = 0)
def xIsSub (f : Format) (v : Nat) : Bool := decide (xExpo f v = 0) && decide (xFrac f v ≠ 0)
def xIsZero (f : Format) (v : Nat) : Bool := decide (xExpo f v = 0) && decide (xFrac f v = 0)

def xSign (f : Format) (neg : Bool) : Nat := if neg then 2 ^ (f.expo + f.frac) else 0
def xZero (f : Format) (neg : Bool) : Nat := xSign f neg
def xInf (f : Format) (neg : Bool) : Nat := xSign f neg + (2 ^ f.expo - 1) * 2 ^ f.frac
def xMax (f : Format) (neg : Bool) : Nat := xInf f neg - 1
/-- The canonical quiet NaN (R192). -/
def xNan (f : Format) : Nat := xInf f false + 2 ^ (f.frac - 1)

/-- A subnormal operand counts as zero of its sign (R188). -/
def xFlush (f : Format) (v : Nat) : Nat := if xIsSub f v then xZero f (xNeg f v) else v

/-- A finite non-zero operand is (−1)^sign × xSig × 2^xPow. -/
def xSig (f : Format) (v : Nat) : Nat := 2 ^ f.frac + xFrac f v
def xPow (f : Format) (v : Nat) : Int := (xExpo f v : Int) - (fmtBias f : Int) - (f.frac : Int)

/-- An operand as an integer multiple of 2^p, for p at most its power. -/
def xScaled (f : Format) (v : Nat) (p : Int) : Int :=
  let m : Int := if xIsZero f v then 0 else (xSig f v : Int) * 2 ^ (xPow f v - p).toNat
  if xNeg f v then -m else m

/-! ## Rounding (R187, R189–R191) -/

/-- The overflow result. -/
def xOverflow (f : Format) (rm : Nat) (neg : Bool) : Nat :=
  match rm with
  | 0 => xInf f neg
  | 1 => xMax f neg
  | 2 => if neg then xMax f true else xInf f false
  | _ => if neg then xInf f true else xMax f false

/-- Round (−1)^neg × (m + ε) × 2^e, where m is not 0 and 0 < ε < 1 exactly when `more`; then m has more bits than
the format's precision. -/
def xRound (f : Format) (rm : Nat) (neg : Bool) (m : Nat) (e : Int) (more : Bool) : XResult :=
  let len := Nat.log2 m + 1
  let sh := len - fmtPrec f
  let up := fmtPrec f - len
  let q0 := m * 2 ^ up / 2 ^ sh
  let lo := m % 2 ^ sh
  let q1 := q0 + if roundsUp rm neg q0 lo (2 ^ sh) more then 1 else 0
  let carry : Bool := decide (q1 = 2 ^ fmtPrec f)
  let q := if carry then 2 ^ f.frac else q1
  let lead : Int := e + sh - up + f.frac + if carry then 1 else 0
  let inexact : Bool := decide (lo ≠ 0) || more
  if (fmtBias f : Int) < lead then { val := xOverflow f rm neg, flags := fOF ||| fNX }
  else if lead < 1 - (fmtBias f : Int) then { val := xZero f neg, flags := fUF ||| fNX }
  else
    { val := xSign f neg + (lead + fmtBias f).toNat * 2 ^ f.frac + (q - 2 ^ f.frac),
      flags := if inexact then fNX else 0 }

/-- Round an exact integer multiple of 2^p; an exact zero is +0, or −0 toward −∞ (R193). -/
def xRoundInt (f : Format) (rm : Nat) (v p : Int) : XResult :=
  if v = 0 then { val := xZero f (decide (rm = 3)), flags := 0 }
  else xRound f rm (decide (v < 0)) v.natAbs p false

/-! ## Arithmetic (R193, R204) -/

/-- A routine over operands: a NaN operand gives the canonical NaN, with NV for a signalling one; a subnormal one sets
DN (R188, R192, R193). -/
def xArith (f : Format) (ops : List Nat) (core : XResult) : XResult :=
  let dn : BitVec 6 := if ops.any (xIsSub f) then fDN else 0
  if ops.any (xIsSnan f) then { val := xNan f, flags := fNV ||| dn }
  else if ops.any (xIsNan f) then { val := xNan f, flags := dn }
  else { core with flags := core.flags ||| dn }

def xInvalid (f : Format) : XResult := { val := xNan f, flags := fNV }
def xPlain (v : Nat) : XResult := { val := v, flags := 0 }

/-- a + b of flushed operands that are no NaN. -/
def xAddCore (f : Format) (rm a b : Nat) : XResult :=
  if xIsInf f a ∧ xIsInf f b ∧ xNeg f a ≠ xNeg f b then xInvalid f
  else if xIsInf f a then xPlain a
  else if xIsInf f b then xPlain b
  else if xIsZero f a ∧ xIsZero f b then
    xPlain (if xNeg f a = xNeg f b then a else xZero f (decide (rm = 3)))
  else
    let p := min (if xIsZero f a then xPow f b else xPow f a) (if xIsZero f b then xPow f a else xPow f b)
    xRoundInt f rm (xScaled f a p + xScaled f b p) p

/-- The pattern with its sign plane inverted. -/
def xNegate (f : Format) (v : Nat) : Nat := v ^^^ 2 ^ (f.expo + f.frac)

def fadd (f : Format) (rm a b : Nat) : XResult := xArith f [a, b] (xAddCore f rm (xFlush f a) (xFlush f b))
def fsub (f : Format) (rm a b : Nat) : XResult :=
  xArith f [a, b] (xAddCore f rm (xFlush f a) (xNegate f (xFlush f b)))

def xMulCore (f : Format) (rm a b : Nat) : XResult :=
  let neg := xNeg f a != xNeg f b
  if (xIsInf f a ∧ xIsZero f b) ∨ (xIsZero f a ∧ xIsInf f b) then xInvalid f
  else if xIsInf f a ∨ xIsInf f b then xPlain (xInf f neg)
  else if xIsZero f a ∨ xIsZero f b then xPlain (xZero f neg)
  else xRound f rm neg (xSig f a * xSig f b) (xPow f a + xPow f b) false

def fmul (f : Format) (rm a b : Nat) : XResult := xArith f [a, b] (xMulCore f rm (xFlush f a) (xFlush f b))

/-- a × b + c with one rounding, for flushed operands that are no NaN (binary16 and binary32). -/
def xFmaCore (f : Format) (rm a b c : Nat) : XResult :=
  let neg := xNeg f a != xNeg f b
  if xIsInf f a ∨ xIsInf f b then
    if xIsInf f c ∧ xNeg f c ≠ neg then xInvalid f else xPlain (xInf f neg)
  else if xIsInf f c then xPlain c
  else if xIsZero f a ∨ xIsZero f b then
    if xIsZero f c then xPlain (if xNeg f c = neg then c else xZero f (decide (rm = 3))) else xPlain c
  else
    let pp := xPow f a + xPow f b
    let p := if xIsZero f c then pp else min pp (xPow f c)
    let m : Int := ((xSig f a * xSig f b : Nat) : Int) * 2 ^ (pp - p).toNat
    xRoundInt f rm ((if neg then -m else m) + xScaled f c p) p

def fma (f : Format) (rm a b c : Nat) : XResult :=
  let x := xFlush f a
  let y := xFlush f b
  let dn : BitVec 6 := if [a, b, c].any (xIsSub f) then fDN else 0
  if (xIsInf f x ∧ xIsZero f y) ∨ (xIsZero f x ∧ xIsInf f y) then { val := xNan f, flags := fNV ||| dn }
  else xArith f [a, b, c] (xFmaCore f rm x y (xFlush f c))

def xDivCore (f : Format) (rm a b : Nat) : XResult :=
  let neg := xNeg f a != xNeg f b
  if (xIsZero f a ∧ xIsZero f b) ∨ (xIsInf f a ∧ xIsInf f b) then xInvalid f
  else if xIsInf f a then xPlain (xInf f neg)
  else if xIsZero f b then { val := xInf f neg, flags := fDZ }
  else if xIsInf f b ∨ xIsZero f a then xPlain (xZero f neg)
  else
    let up := fmtPrec f + 16
    let n := xSig f a * 2 ^ up
    xRound f rm neg (n / xSig f b) (xPow f a - xPow f b - up) (decide (n % xSig f b ≠ 0))

def fdiv (f : Format) (rm a b : Nat) : XResult := xArith f [a, b] (xDivCore f rm (xFlush f a) (xFlush f b))

def xSqrtCore (f : Format) (rm a : Nat) : XResult :=
  if xIsZero f a then xPlain a
  else if xNeg f a then xInvalid f
  else if xIsInf f a then xPlain a
  else
    let up := fmtPrec f + 13
    let up := if (xPow f a - up) % 2 = 0 then up else up + 1
    let n := xSig f a * 2 ^ up
    let r := rootBits n (fmtPrec f + 8) 0
    xRound f rm false r ((xPow f a - up) / 2) (decide (r * r ≠ n))

def fsqrt (f : Format) (rm a : Nat) : XResult := xArith f [a] (xSqrtCore f rm (xFlush f a))

/-- FNEG and FABS change only the sign plane (R192). -/
def fnegX (f : Format) (a : Nat) : Nat := xNegate f a
def fabsX (f : Format) (a : Nat) : Nat := a % 2 ^ (f.expo + f.frac)

/-! ## Comparisons (R193) -/

def xKey (f : Format) (v : Nat) : Int :=
  if xNeg f v then -((v % 2 ^ (f.expo + f.frac) : Nat) : Int) else ((v % 2 ^ (f.expo + f.frac) : Nat) : Int)

/-- A comparison: quiet ones set NV for a signalling NaN only. -/
def xCompare (f : Format) (quiet onNan : Bool) (rel : Int → Int → Bool) (a b : Nat) : XResult :=
  let dn : BitVec 6 := if [a, b].any (xIsSub f) then fDN else 0
  let nan := [a, b].any (xIsNan f)
  let nv : BitVec 6 := if (if quiet then [a, b].any (xIsSnan f) else nan) then fNV else 0
  { val := (if nan then onNan else rel (xKey f (xFlush f a)) (xKey f (xFlush f b))).toNat, flags := nv ||| dn }

def feq (f : Format) (a b : Nat) : XResult := xCompare f true false (fun x y => decide (x = y)) a b
def flt (f : Format) (a b : Nat) : XResult := xCompare f false false (fun x y => decide (x < y)) a b
def fle (f : Format) (a b : Nat) : XResult := xCompare f false false (fun x y => decide (x ≤ y)) a b
def funX (f : Format) (a b : Nat) : XResult := xCompare f true true (fun _ _ => false) a b

/-! ## Conversions (R205–R207) -/

/-- FCVT from f to g. -/
def fcvt (f g : Format) (rm a : Nat) : XResult :=
  let x := xFlush f a
  let dn : BitVec 6 := if xIsSub f a then fDN else 0
  if xIsNan f a then { val := xNan g, flags := if xIsSnan f a then fNV else 0 }
  else if xIsInf f x then xPlain (xInf g (xNeg f x))
  else if xIsZero f x then { val := xZero g (xNeg f x), flags := dn }
  else xRound g rm (xNeg f x) (xSig f x) (xPow f x) false

/-- The integer a finite flushed value rounds to, and whether it changed. -/
def xToInteger (f : Format) (rm a : Nat) : Int × Bool :=
  if xIsZero f a then (0, false)
  else
    let (q, lo, md) : Nat × Nat × Nat :=
      if 0 ≤ xPow f a then (xSig f a * 2 ^ (xPow f a).toNat, 0, 1)
      else (xSig f a / 2 ^ (-xPow f a).toNat, xSig f a % 2 ^ (-xPow f a).toNat, 2 ^ (-xPow f a).toNat)
    let q := q + if roundsUp rm (xNeg f a) q lo md false then 1 else 0
    (if xNeg f a then -(q : Int) else (q : Int), decide (lo ≠ 0))

/-- FTOI; FTOIZ is the same with rounding mode 1 (R206). -/
def ftoi (f : Format) (rm : Nat) (sg : Bool) (wd a : Nat) : Int × BitVec 6 :=
  let x := xFlush f a
  let dn : BitVec 6 := if xIsSub f a then fDN else 0
  if xIsNan f x then (0, fNV)
  else if xIsInf f x then (if xNeg f x then lowest sg wd else highest sg wd, fNV)
  else
    let (v, inexact) := xToInteger f rm x
    if v < lowest sg wd then (lowest sg wd, fNV)
    else if highest sg wd < v then (highest sg wd, fNV)
    else (v, (if inexact then fNX else 0) ||| dn)

/-- ITOF (R207). -/
def itof (f : Format) (rm : Nat) (v : Int) : XResult := if v = 0 then xPlain 0 else xRoundInt f rm v 0

/-! ## Flags in a PE (R194, R195) -/

/-- The six flags of a PE after a routine: sticky, and only where M is 1. -/
def flagsAfter (m : Bool) (old new : BitVec 6) : BitVec 6 := if m then old ||| new else old

/-! ## Times in ACLK (R203, R208) -/

/-- Σ over j < s of 10 + g_j × e_j, with significand width q (e_j is q for j = 0, else 2q). -/
def alignTime (q : Nat) (g : List Bool) : Nat :=
  ((List.range g.length).map fun j => 10 + if g.getD j false then (if j = 0 then q else 2 * q) else 0).sum

/-- Σ over j of 2^j + 10 + n_j × e_j. -/
def normTime (q : Nat) (n : List Bool) : Nat :=
  ((List.range n.length).map fun j => 2 ^ j + 10 + if n.getD j false then (if j = 0 then q else 2 * q) else 0).sum

/-- FADD and FSUB. -/
def timeFadd (f : Format) (g : List Bool) (gc h : Bool) (n : List Bool) : Nat :=
  let q := fmtPrec f + 3
  3 * fmtWidth f + 3 * fmtPrec f + 2 * f.expo + 35 + alignTime q g + (if gc then q else 0) +
    if h then normTime q n else 0

/-- Σ c_j over the multiplier's significand bits. -/
def fmulSteps (f : Format) (g : List Bool) : Nat :=
  (g.map fun b => if b then fmtPrec f + 2 else 1).sum

def timeFmul (f : Format) (g : List Bool) (gn : Bool) : Nat :=
  3 * fmtWidth f + 4 * fmtPrec f + f.expo + 29 + fmulSteps f g + 8 * refills g +
    if gn then 2 * fmtPrec f else 0

def timeFma (f : Format) (g align : List Bool) (gc h : Bool) (n : List Bool) : Nat :=
  let q := 3 * fmtPrec f + 3
  4 * fmtWidth f + 6 * fmtPrec f + 2 * f.expo + 40 + fmulSteps f g + 8 * refills g + alignTime q align +
    (if gc then q else 0) + if h then normTime q n else 0

/-- FDIV, with m_b live mantissa bits of the divisor. -/
def timeFdiv (f : Format) (mb : Nat) : Nat :=
  3 * fmtWidth f + 2 * fmtPrec f + f.expo + 29 + (fmtPrec f - mb) + 9 + (fmtPrec f + 2) * (2 * mb + 5)

def timeFsqrt (f : Format) : Nat :=
  2 * fmtWidth f + 3 * fmtPrec f + f.expo + 20 + (fmtPrec f + 2) * (2 * fmtPrec f + 10)
def timeFcmp (f : Format) : Nat := 2 * fmtWidth f + 10
def timeFnegAbs (f : Format) : Nat := fmtWidth f + 4

def timeWiden (f g : Format) : Nat := fmtWidth f + fmtWidth g + 6
def timeNarrow (f g : Format) : Nat := fmtWidth f + g.expo + fmtWidth g + fmtPrec g + 16

/-- FTOI and FTOIZ: `g` lists g_j for j below the bit length of Wd + p. -/
def timeFtoi (f : Format) (wd : Nat) (g : List Bool) : Nat :=
  fmtWidth f + f.expo + 10 + alignTime (wd + fmtPrec f) g + 2 * wd + 6

/-- ITOF of a source of live width L: `n` lists n_j for j below the bit length of max(L − 1, 1). -/
def timeItof (f : Format) (sg : Bool) (l : Nat) (n : List Bool) : Nat :=
  (if l = 0 then fmtWidth f + 4 else l + 6 + normTime l n + fmtWidth f + fmtPrec f + 8) +
    if sg then l + 5 else 0

end Sys2Proof.Machine.Library
end

