-- ==== Sys2Proof/Machine/LibraryRun.lean ====
section
/-!
DEFINITION. What a call of a library routine leaves in the module (04, 05, 06): sources read through their
descriptors with extension, the destination's planes where M is 1 and where it is 0, its live width, and the flag
planes. The functions of one PE stand in LibraryInt, LibraryArray and LibraryFp. A call's time, the latches it uses
and the ECC events of its reads are left out (log 170).
-/
namespace Sys2Proof.Machine.Library

/-! ## Variables -/

/-- The bits of the first n PEs, as a number. -/
def bitsBelow (f : Nat → Bool) : Nat → Nat
  | 0 => 0
  | n + 1 => bitsBelow f n ||| if f n then 1 <<< n else 0

/-- A plane from the bit of each PE. -/
def planeOf (f : Nat → Bool) : Plane := BitVec.ofNat peCount (bitsBelow f peCount)

/-- The stored bits of a PE over n planes from `base`, as a number. -/
def storedBits (s : State) (base pe : Nat) : Nat → Nat
  | 0 => 0
  | n + 1 => storedBits s base pe n + if (planeBits s (base + n)).getLsbD pe then 2 ^ n else 0

/-- The value of a PE's variable, as its descriptor extends it (R77, R147, R148). -/
def varValue (s : State) (n pe : Nat) : Int :=
  let d := descAt s n
  valueOf (descSigned d) (descLw d) (storedBits s (descBase d) pe (descLw d))

/-- The plane that a variable reads at an offset: below its live width the stored one, above it the extension (R77). -/
def varPlane (s : State) (n i : Nat) : Plane :=
  let d := descAt s n
  if i < descLw d then planeBits s (descBase d + i)
  else match extension d with
    | .plane p => planeBits s p
    | .value v => v

/-- Live width of a variable, declared width and signedness. -/
def lw (s : State) (n : Nat) : Nat := descLw (descAt s n)
def dw (s : State) (n : Nat) : Nat := descDw (descAt s n)
def sgn (s : State) (n : Nat) : Bool := descSigned (descAt s n)

/-- How a routine leaves the live width of its destination: by the probe, or at the declared width (R95, R151). -/
inductive Commit where
  | probe
  | declared
  deriving DecidableEq, Repr

/-- What becomes of a destination where M is 0: its value is unspecified (R157), its stored bits stay (R136, R186), or
its value stays (R145, R183). -/
inductive Masked where
  | unspecified
  | bits
  | value
  deriving DecidableEq, Repr

/-- The width that a routine commits over its w written planes (R151, R158). -/
def commitOf (s : State) (n w : Nat) (c : Commit) : Nat :=
  match c with
  | .probe => min (planesWidth s (sgn s n) (descBase (descAt s n)) w) (dw s n)
  | .declared => dw s n

/-- The live width is committed. -/
def commitLw (s : State) (n w : Nat) : State := setDesc s n (descWithLw (descAt s n) w)

/-- Write the w low planes of a variable in the PEs of `mask` with the values of f. -/
def writeVar (s : State) (n : Nat) (mask : Plane) (f : Nat → Int) (w : Nat) : State :=
  (List.range w).foldl (fun s i =>
    (planeWrite s (descBase (descAt s n) + i) (planeOf fun pe => (pattern w (f pe)).testBit i) mask).1) s

/-- The values of the w low planes become unspecified in the PEs of `mask`. -/
def spoilVar (s : State) (n : Nat) (mask : Plane) (w : Nat) : State :=
  (List.range w).foldl (fun s i => spoilPlane s (descBase (descAt s n) + i) mask) s

/-- A routine leaves g in its destination over `planes` planes: at least one, since a loop body with a count of 0 still
issues once, and none past the declared width, at which the value keeps its low bits (R76, R166). Where M is 1 a value
below that width holds if it fits (R165); `mode` says what M = 0 leaves. -/
def leave (s : State) (n planes : Nat) (c : Commit) (mode : Masked) (g : Nat → Int) : State :=
  let m := s.arr.m
  let lr := min (max 1 planes) (dw s n)
  let f (pe : Nat) : Int := if dw s n ≤ lr then wrapInt (sgn s n) lr (g pe) else g pe
  let misfit := m &&& planeOf fun pe => !fitsIn (sgn s n) lr (f pe)
  let (w, t) : Nat × State :=
    match mode with
    | .unspecified => (lr, spoilVar (writeVar s n m f lr) n (~~~ m ||| misfit) lr)
    | .bits => (lr, spoilVar (writeVar s n m f lr) n misfit lr)
    | .value =>
      let w := max lr (lw s n)
      (w, spoilVar (writeVar s n allPes (fun pe => maskedI (m.getLsbD pe) (f pe) (varValue s n pe)) w) n misfit w)
  commitLw t n (commitOf t n w c)

/-- What a form leaves where M is 0: the plain form, or the masked form of R183. -/
def formOf (masked : Bool) : Masked := if masked then .value else .unspecified

/-! ## Integer routines (05) -/

/-- Some PE whose M is 1 satisfies a test: the masked global OR. -/
def anyActive (s : State) (f : Nat → Bool) : Bool := anyPe (s.arr.m &&& livePes s &&& planeOf f)

/-- A routine of one source. -/
def unary (s : State) (masked : Bool) (d a lr : Nat) (f : Int → Int) : State :=
  leave s d lr .probe (formOf masked) fun pe => f (varValue s a pe)

/-- Two unsigned sources in one sub-bank: port B delivers 0 and CONFLICT is set (R43, R163). What the routine then
leaves is not said. -/
def misplaced (s : State) (a b : Nat) : Bool :=
  !sgn s a && !sgn s b && decide (0 < lw s a) && decide (0 < lw s b) &&
    decide ((descBase (descAt s a)) % 2 = (descBase (descAt s b)) % 2) && decide (a ≠ b)

/-- A variable whose value and live width nothing says. -/
def openVar (s : State) (d : Nat) : State :=
  let t := spoilVar s d allPes (dw s d)
  usedFree (commitLw t d (freeNat t % (dw s d + 1)))

/-- An unsigned call with misplaced sources has written the destinations `ds`. -/
def conflicted (s : State) (ds : List Nat) : State :=
  let t := ds.foldl openVar (helmErr s hCONFLICT)
  usedFree (setReg t Reg.hlmConflict (freeWord t))

/-- A routine of two sources. -/
def binary (s : State) (masked : Bool) (d a b lr : Nat) (f : Int → Int → Int) : State :=
  if misplaced s a b then conflicted s [d]
  else leave s d lr .probe (formOf masked) fun pe => f (varValue s a pe) (varValue s b pe)

def runAdd (s : State) (masked : Bool) (d a b : Nat) : State :=
  binary s masked d a b (lrOf (dw s d) (lw s a) (lw s b)) (addI (sgn s d) (dw s d))

/-- Offsets that SUB writes: up to the declared width where an unsigned difference borrows (R167). Where the signedness of
the sources and of the destination differs, a routine takes the form of its destination (DESIGN CHOICE, log 204). -/
def lrSub (s : State) (d a b : Nat) : Nat :=
  if sgn s d then lrOf (dw s d) (lw s a) (lw s b)
  else if anyActive s fun pe => decide (varValue s a pe < varValue s b pe) then dw s d
  else min (dw s d) (lmOf (lw s a) (lw s b))

def runSub (s : State) (masked : Bool) (d a b : Nat) : State :=
  binary s masked d a b (lrSub s d a b) (subI (sgn s d) (dw s d))

/-- Offsets of SATADD and of signed SATSUB: up to the declared width where some PE is clamped. -/
def lrSat (s : State) (d a b : Nat) (f : Int → Int → Int) : Nat :=
  if anyActive s fun pe =>
      let v := f (varValue s a pe) (varValue s b pe)
      decide (clampInt (sgn s d) (dw s d) v ≠ v) then dw s d
  else lrOf (dw s d) (lw s a) (lw s b)

def runSatAdd (s : State) (masked : Bool) (d a b : Nat) : State :=
  binary s masked d a b (lrSat s d a b (· + ·)) (satAddI (sgn s d) (dw s d))
def runSatSub (s : State) (masked : Bool) (d a b : Nat) : State :=
  binary s masked d a b (if sgn s d then lrSat s d a b (· - ·) else min (dw s d) (lmOf (lw s a) (lw s b)))
    (satSubI (sgn s d) (dw s d))

/-- A carry or borrow goes to offset 0 of its variable, whose live width is then 1 (R168). -/
def leaveCarry (s : State) (masked : Bool) (c : Nat) (f : Nat → Bool) : State :=
  let old (pe : Nat) : Int := varValue s c pe
  let m := s.arr.m
  let t := writeVar s c allPes (fun pe => if m.getLsbD pe then (f pe).toNat else old pe) 1
  commitLw (if masked then t else spoilVar t c (~~~ m) 1) c 1

/-- The carry of a PE: carry-in through the descriptor. -/
def carryIn (s : State) (c pe : Nat) : Bool := decide (varValue s c pe % 2 = 1)

/-- ADDC and SUBC: sum or difference into d, and the carry variable. -/
def withCarry (s : State) (masked : Bool) (d a b c lr : Nat) (f : Int → Int → Bool → Int × Bool) : State :=
  let r (pe : Nat) : Int × Bool := f (varValue s a pe) (varValue s b pe) (carryIn s c pe)
  if misplaced s a b then conflicted s [d, c]
  else leaveCarry (leave s d lr .probe (formOf masked) fun pe => (r pe).1) masked c fun pe => (r pe).2

def runAddc (s : State) (masked : Bool) (d a b c : Nat) : State :=
  let lr := lrOf (dw s d) (lw s a) (lw s b)
  withCarry s masked d a b c lr (addCI (sgn s d) (dw s d) lr)
def runSubc (s : State) (masked : Bool) (d a b c : Nat) : State :=
  let below (pe : Nat) : Bool := decide (varValue s a pe < varValue s b pe + (carryIn s c pe).toNat)
  let lr := if sgn s d then lrOf (dw s d) (lw s a) (lw s b)
    else if anyActive s below then dw s d else min (dw s d) (lmOf (lw s a) (lw s b))
  withCarry s masked d a b c lr (subCI (sgn s d) (dw s d))

/-- A comparison into a 1-bit unsigned destination (R169). -/
def runCompare (rel : Int → Int → Int) (s : State) (masked : Bool) (d a b : Nat) : State :=
  binary s masked d a b 1 rel
def runMin (s : State) (masked : Bool) (d a b : Nat) : State :=
  binary s masked d a b (lrOr (dw s d) (lw s a) (lw s b)) (minI (sgn s d) (dw s d))
def runMax (s : State) (masked : Bool) (d a b : Nat) : State :=
  binary s masked d a b (lrOr (dw s d) (lw s a) (lw s b)) (maxI (sgn s d) (dw s d))

def runMov (s : State) (masked : Bool) (d a : Nat) : State :=
  unary s masked d a (min (dw s d) (lw s a)) (movI (sgn s d) (dw s d))
/-- ABS of an unsigned source is MOV (R171). -/
def runAbs (s : State) (masked : Bool) (d a : Nat) : State :=
  if sgn s a then unary s masked d a (lrAbs (sgn s d) (dw s d) (lw s a)) (absI (sgn s d) (dw s d))
  else runMov s masked d a
def runAnd (s : State) (masked : Bool) (d a b : Nat) : State :=
  binary s masked d a b (lrAnd (sgn s d) (dw s d) (lw s a) (lw s b)) (andI (sgn s d) (dw s d))
def runAndn (s : State) (masked : Bool) (d a b : Nat) : State :=
  binary s masked d a b (lrAndn (sgn s d) (dw s d) (lw s a) (lw s b)) (andnI (sgn s d) (dw s d))
def runOr (s : State) (masked : Bool) (d a b : Nat) : State :=
  binary s masked d a b (lrOr (dw s d) (lw s a) (lw s b)) (orI (sgn s d) (dw s d))
def runXor (s : State) (masked : Bool) (d a b : Nat) : State :=
  binary s masked d a b (lrOr (dw s d) (lw s a) (lw s b)) (xorI (sgn s d) (dw s d))
def runNot (s : State) (masked : Bool) (d a : Nat) : State :=
  unary s masked d a (lrNot (sgn s d) (dw s d) (lw s a)) (notI (sgn s d) (dw s d))
def runShl (s : State) (masked : Bool) (d a n : Nat) : State :=
  unary s masked d a (lrShl (dw s d) (lw s a) n) fun v => shlI (sgn s d) (dw s d) v n
def runShr (s : State) (masked : Bool) (d a n : Nat) : State :=
  unary s masked d a (if n = 0 then min (dw s d) (lw s a) else lrShr (sgn s a) (dw s d) (lw s a) n) fun v =>
    shrI (sgn s d) (dw s d) v n

/-- VSHL and VSHR by the PE's own amount leave d at its declared width (R173). -/
def runVsh (left : Bool) (s : State) (masked : Bool) (d a n : Nat) : State :=
  leave s d (dw s d) .declared (formOf masked) fun pe =>
    (if left then vshlI else vshrI) (sgn s d) (dw s d) (varValue s a pe) (varValue s n pe).toNat

def runMul (s : State) (masked : Bool) (d a b : Nat) : State :=
  binary s masked d a b (min (dw s d) (lw s a + lw s b)) (mulI (sgn s d) (dw s d))

/-- MULW leaves both words at their declared widths (R176); wider words than 128 bits it does not take. -/
def runMulw (s : State) (masked : Bool) (lo hi a b : Nat) : State :=
  if mulwOk (dw s lo) (dw s hi) = false then s
  else
    let r (pe : Nat) : Int × Int := mulwI (sgn s hi) (dw s lo) (dw s hi) (varValue s a pe) (varValue s b pe)
    let t := leave s lo (dw s lo) .declared (formOf masked) fun pe => (r pe).1
    leave t hi (dw s hi) .declared (formOf masked) fun pe => (r pe).2

/-- DIV into q and REM into r (R177–R179, R181). -/
def runDiv (s : State) (masked : Bool) (q r a b : Nat) : State :=
  let v (pe : Nat) : Int × Int := divI (sgn s q) (dw s q) (dw s r) (varValue s a pe) (varValue s b pe)
  let t := leave s q (dw s q) .probe (formOf masked) fun pe => (v pe).1
  leave t r (dw s r) .probe (formOf masked) fun pe => (v pe).2

/-- Bits over which POPC and HAM count a source: its live width, or a signed one's declared width (R182). Where the
declared widths of HAM's sources differ and one is signed, the rule does not say over which width it counts: both are
extended to the larger declared width (DESIGN CHOICE, log 204). -/
def countOver (s : State) (a : Nat) : Nat := if sgn s a then dw s a else lw s a

def runPopc (s : State) (masked : Bool) (d a : Nat) : State :=
  unary s masked d a (popcWidth (dw s d) (countOver s a)) (popcI (dw s d) (dw s a))
def runHam (s : State) (masked : Bool) (d a b : Nat) : State :=
  binary s masked d a b (popcWidth (dw s d) (max (countOver s a) (countOver s b))) (hamI (dw s d) (max (dw s a) (dw s b)))

/-! ## Floating-point routines (06) -/

/-- The rounding mode of the kernel that calls (R102, R187). -/
def callerMode (s : State) : Nat :=
  match s.helm.run with
  | some k => k.req.rmode.toNat
  | none => 0

/-- A variable that a routine takes as of format f (R185). -/
def isFormat (s : State) (f : Format) (n : Nat) : Bool :=
  descValid (descAt s n) && !sgn s n && decide (dw s n = fmtWidth f)

/-- The pattern of a PE's operand. -/
def fpOperand (s : State) (n pe : Nat) : Nat := (varValue s n pe).toNat

/-- A variable declared any other way gives an unspecified result in every PE (R185). Whether such a call changes the flag
planes is not said: it leaves them (DESIGN CHOICE, log 204). -/
def unspecifiedResult : State → Nat → State := openVar

/-- The flags of a routine enter the flag planes where M is 1 (R194). -/
def orFlags (s : State) (f : Nat → BitVec 6) : State :=
  (List.range 6).foldl (fun s i =>
    (planeWrite s (4072 + i) allPes (s.arr.m &&& planeOf fun pe => (f pe).getLsbD i)).1) s

/-- A routine with a floating-point result in format f: every offset where M is 1, and WIDTH_RESET (R186). -/
def fpLeave (s : State) (f : Format) (d : Nat) (ok : Bool) (r : Nat → XResult) : State :=
  if !ok || !isFormat s f d then unspecifiedResult s d
  else orFlags (leave s d (fmtWidth f) .declared .bits fun pe => ((r pe).val : Int)) fun pe => (r pe).flags

def runFp1 (op : Format → Nat → Nat → XResult) (f : Format) (s : State) (d a : Nat) : State :=
  fpLeave s f d (isFormat s f a) fun pe => op f (callerMode s) (fpOperand s a pe)
def runFp2 (op : Format → Nat → Nat → Nat → XResult) (f : Format) (s : State) (d a b : Nat) : State :=
  fpLeave s f d (isFormat s f a && isFormat s f b) fun pe => op f (callerMode s) (fpOperand s a pe) (fpOperand s b pe)

def runFadd : Format → State → Nat → Nat → Nat → State := runFp2 fadd
def runFsub : Format → State → Nat → Nat → Nat → State := runFp2 fsub
def runFmul : Format → State → Nat → Nat → Nat → State := runFp2 fmul
def runFdiv : Format → State → Nat → Nat → Nat → State := runFp2 fdiv
def runFsqrt : Format → State → Nat → Nat → State := runFp1 fsqrt
/-- FMA, in binary16 and binary32 alone. -/
def runFma (f : Format) (s : State) (d a b c : Nat) : State :=
  fpLeave s f d (decide (f ≠ binary64) && isFormat s f a && isFormat s f b && isFormat s f c) fun pe =>
    fma f (callerMode s) (fpOperand s a pe) (fpOperand s b pe) (fpOperand s c pe)
def runFneg : Format → State → Nat → Nat → State := runFp1 fun f _ a => xPlain (fnegX f a)
def runFabs : Format → State → Nat → Nat → State := runFp1 fun f _ a => xPlain (fabsX f a)
def runFcvt (f g : Format) (s : State) (d a : Nat) : State :=
  fpLeave s g d (isFormat s f a) fun pe => fcvt f g (callerMode s) (fpOperand s a pe)
def runItof (f : Format) (s : State) (d a : Nat) : State :=
  fpLeave s f d true fun pe => itof f (callerMode s) (varValue s a pe)

/-- A comparison: a 1-bit destination whose live width the probe commits (R169, R203), and its flags. -/
def runFcmp (op : Format → Nat → Nat → XResult) (f : Format) (s : State) (d a b : Nat) : State :=
  if !isFormat s f a || !isFormat s f b then unspecifiedResult s d
  else
    let r (pe : Nat) : XResult := op f (fpOperand s a pe) (fpOperand s b pe)
    orFlags (leave s d 1 .probe .unspecified fun pe => ((r pe).val : Int)) fun pe => (r pe).flags

/-- FTOI by a rounding mode: the probe commits the live width (R206). -/
def ftoiBy (rm : Nat) (f : Format) (s : State) (d a : Nat) : State :=
  if isFormat s f a = false then unspecifiedResult s d
  else
    let r (pe : Nat) : Int × BitVec 6 := ftoi f rm (sgn s d) (dw s d) (fpOperand s a pe)
    orFlags (leave s d (dw s d) .probe .unspecified fun pe => (r pe).1) fun pe => (r pe).2

def runFtoi (f : Format) (s : State) (d a : Nat) : State := ftoiBy (callerMode s) f s d a
/-- FTOIZ rounds toward zero whatever RMODE holds (R187). -/
def runFtoiz : Format → State → Nat → Nat → State := ftoiBy 1

/-- FCLR, FSAVE and FREST act in every PE and leave Q unspecified (R195). -/
def runFclr (s : State) : State := updArr (usedFree s) (fclr (freePlane s))
def runFsave (s : State) (n : Nat) : State :=
  commitLw (updArr (usedFree s) (fsave (freePlane s) (descBase (descAt s n)))) n 6
def runFrest (s : State) (n : Nat) : State :=
  updArr (usedFree s) (frest (freePlane s) ((List.range 6).map (varPlane s n)))

/-! ## Shifts, segments and global extremes (04) -/

/-- The fill of an EDGE code at the edge that a DIR code makes (R124); a HALO fill takes the given slot. -/
def routineFill (s : State) (dir edge slot : Nat) : EdgeFill :=
  match edge with
  | 0 => .zero
  | 1 => .one
  | 2 => .wrap
  | _ => .halo (haloSlot s (dirFrom dir) slot)

/-- A plane moved k PEs; a PE of a lost tile row holds X at 0 at every move (R57, R127). -/
def shiftPlane (live : Plane) (dir : Nat) (f : EdgeFill) : Nat → Plane → Plane
  | 0, p => p
  | k + 1, p => shiftPlane live dir f k (xinOf dir p f &&& live)

/-- The shift routine (R128): plane i of the source, moved k PEs, with the fill of EDGE; `slot i` is the halo slot that
plane i names under HALO. A source of live width 0 makes it one WIDTH_SET of 0. -/
def runShift (s : State) (d a dir edge k : Nat) (slot : Nat → Nat) : State :=
  let l := min (lw s a) (dw s d)
  if l = 0 then (if sgn s d then helmErr s hBADDESC else commitLw s d 0)
  else
    let m := s.arr.m
    let t := (List.range l).foldl (fun t i =>
      let x := planeBits s (descBase (descAt s a) + i) &&& livePes s
      let v := shiftPlane (livePes s) dir (routineFill s dir edge (slot i)) k x
      (planeWrite t (descBase (descAt s d) + i) v m).1) s
    let t := spoilVar t d (~~~ m) l
    commitLw t d (commitOf t d l .probe)

/-- The value of each PE's segment: the OR of x over the segment's PEs whose M is 1 (R129, R130). -/
def segBus (s : State) (row : Bool) (x : Plane) : Plane :=
  let drive := x &&& s.arr.m &&& livePes s
  if row then rowBus drive (planeBits s 4092 &&& livePes s) else colBus drive (planeBits s 4093 &&& livePes s)

/-- SEGMIN over the candidates of D, bit planes from the highest down: the result's bit planes, lowest first (R136). -/
def segMinBits (s : State) (row : Bool) : Plane → List Plane → List Plane
  | _, [] => []
  | d, p :: rest =>
    let bus := segBus s row (d &&& ~~~ p)
    segMinBits s row (d &&& (~~~ bus ||| ~~~ p)) rest ++ [~~~ bus]

/-- SEGMAX likewise. -/
def segMaxBits (s : State) (row : Bool) : Plane → List Plane → List Plane
  | _, [] => []
  | d, p :: rest =>
    let bus := segBus s row (d &&& p)
    segMaxBits s row (d &&& (~~~ bus ||| p)) rest ++ [bus]

/-- The number that bit planes, lowest first, give a PE. -/
def bitsAt (l : List Plane) (pe : Nat) : Nat :=
  (l.zipIdx).foldl (fun a p => if p.1.getLsbD pe then a + 2 ^ p.2 else a) 0

/-- The planes of a k-bit variable, highest first, read through its descriptor. -/
def bitPlanes (s : State) (n k : Nat) : List Plane :=
  (List.range k).reverse.map fun i => planeOf fun pe => (pattern k (varValue s n pe)).testBit i

/-- The index planes of an axis, highest first: COLBIT for row segments, ROWBIT for column segments (R135). -/
def indexPlanes (row : Bool) : List Plane := (List.range 10).reverse.map fun k => if row then colBit k else rowBit k

/-- Own index of a PE along an axis. -/
def ownIndex (row : Bool) (pe : Nat) : Nat := if row then pe % 1024 else pe / 1024

/-- A segment routine's result in d, in the PEs whose M is 1; the others keep their bits (R136). -/
def segLeave (s : State) (d k : Nat) (f : Nat → Nat) : State := leave s d k .probe .bits fun pe => (f pe : Int)

/-- SEGOR of bit plane b, into plane 4094 (row) or 4095 (column) (R134, R135). -/
def runSegOr (s : State) (row : Bool) (b : Nat) : State :=
  (planeWrite s (if row then 4094 else 4095) (segBus s row (planeBits s b)) s.arr.m).1
def runSegMin (s : State) (row : Bool) (d v k : Nat) : State :=
  segLeave s d k (bitsAt (segMinBits s row allPes (bitPlanes s v k)))
def runSegMax (s : State) (row : Bool) (d v k : Nat) : State :=
  segLeave s d k (bitsAt (segMaxBits s row allPes (bitPlanes s v k)))

/-- The head of each PE's segment: SEGMIN of the index over the PEs of a plane. -/
def headOf (s : State) (row : Bool) (among : Plane) : Nat → Nat := bitsAt (segMinBits s row among (indexPlanes row))

def runSegHead (s : State) (row : Bool) (d : Nat) : State := segLeave s d 10 (headOf s row allPes)
def runSegRank (s : State) (row : Bool) (d : Nat) : State :=
  segLeave s d 10 fun pe => ownIndex row pe - headOf s row allPes pe
/-- SEGPOR of bit plane b: a PE at or after the first set bit reads 1. Where the routine leaves that bit is not said, nor
whether plane 4094 or 4095 holds the SEGOR afterwards: the model writes a variable d, and leaves the SEGOR there (DESIGN
CHOICE, log 204). -/
def runSegPor (s : State) (row : Bool) (d b : Nat) : State :=
  let bits := planeBits s b
  let found := segBus s row bits
  segLeave (runSegOr s row b) d 1 fun pe =>
    (found.getLsbD pe && decide (headOf s row bits pe ≤ ownIndex row pe)).toNat

/-- The values of a variable in the active PEs. -/
def activeValues (s : State) (a : Nat) : List Int :=
  ((List.range peCount).filter fun pe => (s.arr.m &&& livePes s).getLsbD pe).map (varValue s a)

/-- The global MIN and MAX into d where M is 1; masked PEs keep their value (R145, R146). -/
def runGlobalMin (s : State) (d a : Nat) : State :=
  leave s d (lw s a) .probe .value fun _ => globalMin (sgn s a) (lw s a) (activeValues s a)
def runGlobalMax (s : State) (d a : Nat) : State :=
  leave s d (lw s a) .probe .value fun _ => globalMax (sgn s a) (lw s a) (activeValues s a)

end Sys2Proof.Machine.Library
end

