-- ==== Sys2Proof/Tests/Slice0.lean ====
section
/-!
SUPPORT. Tests: what `Instr.wf` refuses, single steps against numbers of the manual, and for every statement with
hypotheses a concrete state and operands that meet them (`witness_…`).
-/
set_option autoImplicit false
set_option Elab.async false
namespace Sys2Proof.Tests
open Sys2Proof Sys2Proof.Machine Sys2Proof.Safety

/-! ## Well-formed commands -/

theorem test_wf_registerWrite :
    (Instr.registerWrite .host 6 0).wf = false ∧ (Instr.registerWrite .host 8 0).wf = true := by decide
theorem test_wf_bar4Access :
    (Instr.bar4Access false 0 0 []).wf = false ∧ (Instr.bar4Access true 0 2 [1]).wf = false ∧
      (Instr.bar4Access true 0 2 [1, 2]).wf = true := by decide
theorem test_wf_frameSyncInEdge :
    (Instr.frameSyncInEdge true 0).wf = false ∧ (Instr.frameSyncInEdge true 1).wf = true := by decide
theorem test_wf_rcFieldRead : (Instr.rcFieldRead .host 2).wf = false ∧ (Instr.rcFieldRead .host 4).wf = true := by decide
theorem test_wf_smbTagWrite :
    (Instr.smbTagWrite ⟨List.replicate 31 0, none⟩).wf = false ∧
      (Instr.smbTagWrite ⟨List.replicate 32 0, none⟩).wf = true := by decide
theorem test_wf_pktWrite :
    (Instr.pktWrite ⟨1, 0⟩ 2 0 true 0 (List.replicate 225 0)).wf = false ∧
      (Instr.pktWrite ⟨1, 0⟩ 2 0 true 0 (List.replicate 224 0)).wf = true := by decide +kernel
theorem test_wf_pktMailbox :
    (Instr.pktMailbox 1 2 0 0 (List.replicate 49 0)).wf = false ∧
      (Instr.pktMailbox 1 2 0 0 (List.replicate 48 0)).wf = true := by decide
theorem test_wf_bank3Request :
    (Instr.bank3Request (.read 0 0)).wf = false ∧ (Instr.bank3Request (.read 0 65)).wf = false ∧
      (Instr.bank3Request (.read 0x7FFFFF 2)).wf = false ∧ (Instr.bank3Request (.write 0 [])).wf = false ∧
      (Instr.bank3Request (.write 0x7FFFFF [1, 2])).wf = false ∧ (Instr.bank3Request (.read 0x7FFFC0 64)).wf = true := by
  decide
theorem test_wf_fnocRequest :
    (Instr.fnocRequest (.read 0 9) []).wf = false ∧ (Instr.fnocRequest (.read 8 64) []).wf = false ∧
      (Instr.fnocRequest (.write 0 []) []).wf = false ∧ (Instr.fnocRequest (.read 64 64) []).wf = true := by decide

/-! ## The Pilots' instructions -/

/-- A word of the R format, or with `low` as its immediate one of the I format. -/
def word (code d a b low : Nat) : Word :=
  BitVec.ofNat 32 (code / 64 * 2 ^ 26 + d * 2 ^ 21 + a * 2 ^ 16 + b * 2 ^ 11 + code % 64 + low)

/-- The Pilots in RUN at level 2, with registers and the words next to execute. -/
def pilots (gs : List (BitVec 5 × Word)) (l : List Word) : State :=
  setGprs { State.reset with mode := .run, plt := { State.reset.plt with started := true, pl := 2, fq := l } } gs

def afterFetch (s : State) : State := (fetchNext s).1

/-- FCSR and results in flight. -/
def withFcsr (s : State) (v : Word) : State := { s with plt := { s.plt with fcsr := v } }
def withFlights (s : State) (l : List Flight) : State := { s with plt := { s.plt with flights := l } }
def mulFlight : Flight := { kind := .mul, writes := [(5, 77), (6, 78)], flags := 0, left := 3 }

theorem witness_mfs : ∀ n ∈ [0, 4, 6, 21],
    let w := word 0x100 7 0 n 0
    let s := withFlights (pilots [] [w]) [{ mulFlight with kind := .fpu, flags := 1 }]
    Executes s (afterFetch s) w 0x100 ∧ (rb w).toNat = n := by decide +kernel

theorem witness_mts : ∀ p ∈ [(0, (9 : Word)), (1, 0x7C0000), (2, 0x800000), (4, 0x3F3F), (20, 5)],
    let w := word 0x101 0 5 p.1 0
    let s := pilots [(5, p.2)] [w]
    let u := if rb w = 4 then awaitUnits (afterFetch s) isFpu else afterFetch s
    let x := gprAt u (ra w)
    Executes s (afterFetch s) w 0x101 ∧ Settled u [ra w] ∧
      (rb w = 1 ∨ rb w = 2 ∨ rb w = 3 → x.toNat % 4 = 0 ∧ 0x7C0000 ≤ x.toNat ∧ x.toNat ≤ 0x800000) := by decide +kernel

theorem witness_mtsRefused : ∀ p ∈ [(1, (0x7BFFFC : Word)), (2, 0x7C0002), (3, 0x800004)],
    let w := word 0x101 0 5 p.1 0
    let s := pilots [(5, p.2)] [w]
    let t := afterFetch s
    Executes s t w 0x101 ∧ Settled t [ra w] ∧ t.plt.pl ≠ 3 ∧ (rb w = 1 ∨ rb w = 2 ∨ rb w = 3) ∧
      ((gprAt t (ra w)).toNat % 4 ≠ 0 ∨ (gprAt t (ra w)).toNat < 0x7C0000 ∨ 0x800000 < (gprAt t (ra w)).toNat) := by
  decide +kernel

theorem witness_alu : ∀ e ∈ aluRows,
    let w := word e.code 7 5 6 0
    let s := pilots [(5, 0x80000000), (6, 3)] [w]
    Executes s (afterFetch s) w e.code ∧ Settled (afterFetch s) (e.reads w) := by decide +kernel

theorem witness_carry : ∀ e ∈ carryRows,
    let w := word e.code 7 5 6 0
    let s := pilots [(5, 0xFFFFFFFF), (6, 1)] [w]
    Executes s (afterFetch s) w e.code ∧ Settled (afterFetch s) (e.reads w) := by decide +kernel

theorem witness_unit : ∀ e ∈ unitRows, ∀ f ∈ [[], [mulFlight]],
    let w := word e.code 8 9 10 0
    let s := withFlights (pilots [(9, 100), (10, 0)] [w]) f
    Executes s (afterFetch s) w e.code ∧ Settled (awaitUnit (afterFetch s) e.kind) [ra w, rb w] := by decide +kernel

theorem witness_unitPending : ∀ e ∈ aluRows.filter (fun e => decide (e.code = 0x049 ∨ e.code = 0x200)),
    let w := word e.code 7 5 0 0
    let s := withFlights (pilots [] [w]) [mulFlight]
    e.reads w = readsA w ∧ Executes s (afterFetch s) w e.code ∧ ra w ≠ 0 ∧ unitOwns (afterFetch s) (ra w) = true := by
  decide +kernel

theorem witness_landing : ∀ k ∈ [FlightKind.mul, .div, .fpu, .slow],
    let s := withFlights State.reset [{ mulFlight with kind := k }]
    s.hx1 = true ∧ s.plt.flights = [{ mulFlight with kind := k }] := by decide +kernel

/-- An FPU instruction over FCSR and two operands. -/
def fpuAt (code : Nat) (fcsr a b : Word) : State := withFcsr (pilots [(5, a), (6, b)] [word code 7 5 6 0]) fcsr

theorem witness_fpuDelivers : ∀ e ∈ fpuRows, ∀ fcsr ∈ [(0 : Word), 0x100],
    let w := word e.code 7 5 6 0
    let s := fpuAt e.code fcsr 0x40000000 0x3F800000
    let u := if e.kind = .slow then awaitUnit (afterFetch s) .slow else afterFetch s
    let r := fpuOutcome e u (gprAt u (ra w)) (gprAt u (rb w))
    Executes s (afterFetch s) w e.code ∧ Settled u (e.reads w) ∧ u.plt.fcsr = fcsr ∧
      (fcsr = 0 → bits u.plt.fcsr 13 8 = 0) ∧
      (fcsr ≠ 0 → bits u.plt.fcsr 13 8 ≠ 0 ∧ bits u.plt.fcsr 13 13 = 0 ∧
        (e.code ≠ 0x0C4 → e.code ≠ 0x0CF → e.code ≠ 0x0CE → bits u.plt.fcsr 12 8 &&& r.flags.toNat % 32 = 0)) := by
  decide +kernel

theorem witness_fpuTraps : ∀ e ∈ fpuRows, ∀ p ∈
    [(0x0C0, (0x2000 : Word), (1 : Word), (0x3F800000 : Word)), (0x0C2, 0x2000, 0x00800000, 0x00800000),
      (0x0C3, 0x1F00, 0x3F800000, 0)], e.code = p.1 →
    let w := word e.code 7 5 6 0
    let s := fpuAt e.code p.2.1 p.2.2.1 p.2.2.2
    let u := if e.kind = .slow then awaitUnit (afterFetch s) .slow else afterFetch s
    let a := gprAt u (ra w)
    let b := gprAt u (rb w)
    let r := fpuOutcome e u a b
    Executes s (afterFetch s) w e.code ∧ (afterFetch s).plt.pl ≠ 3 ∧ Settled u (e.reads w) ∧
      (e.code = 0x0C0 → bits u.plt.fcsr 13 13 = 1 ∧ e.subs a b ≠ 0) ∧
      (e.code = 0x0C2 → bits u.plt.fcsr 13 13 = 1 ∧ e.subs a b = 0 ∧ r.tiny = true) ∧
      (e.code = 0x0C3 → bits u.plt.fcsr 13 13 = 0 ∧ bits u.plt.fcsr 12 8 &&& r.flags.toNat % 32 ≠ 0) := by
  decide +kernel

theorem witness_loads : ∀ e ∈ loadRows, ∀ base ∈ [0x1000, 0x7BFFFC],
    let w := word e.code 7 5 0 0
    let s := pilots [(5, BitVec.ofNat 32 base)] [w]
    let t := afterFetch s
    let a := (effAddr t w).toNat
    Executes s t w e.code ∧ Settled t [ra w] ∧ refusal t (access t false e.excl) a e.size = none ∧
      (pilotLoad t .pilot a e.size).2.1 = .ok ∧ dbpHit t false (pilotBytes a e.size) = false := by decide +kernel

theorem witness_stores : ∀ e ∈ storeRows, ∀ base ∈ [0x1000, 0x7BFFFC],
    let w := word e.code 6 5 0 0
    let s := pilots [(5, BitVec.ofNat 32 base), (6, 0x12345678)] [w]
    let t := afterFetch s
    let a := (effAddr t w).toNat
    let bs := (List.range e.size).map fun i => BitVec.ofNat 8 ((gprAt t (rd w)).toNat / 256 ^ i)
    Executes s t w e.code ∧ Settled t [ra w, rd w] ∧ refusal t (access t true false) a e.size = none ∧
      (pilotStore t .pilot a bs 0).2.1 = .ok ∧ dbpHit t true (pilotBytes a e.size) = false := by decide +kernel

theorem witness_swc : ∀ held ∈ [true, false],
    let w := word 0x6C0 7 5 6 0
    let p := pilots [(5, 0x1000), (6, 9)] [w]
    let s := { p with plt := { p.plt with resv := if held = true then some (moduleOf p 0x1000 / 64) else none } }
    let t := afterFetch s
    let a := (gprAt t (ra w)).toNat
    let bs := (List.range 4).map fun i => BitVec.ofNat 8 ((gprAt t (rb w)).toNat / 256 ^ i)
    Executes s t w 0x6C0 ∧ Settled t [ra w, rb w] ∧ refusal t (access t true true) a 4 = none ∧
      (t.plt.resv = some (moduleOf t a / 64) ↔ held = true) ∧ (pilotStore t .pilot a bs 0).2.1 = .ok ∧
      dbpHit t true (pilotBytes a 4) = false := by decide +kernel

theorem witness_bank0 : ∀ a ∈ [(0 : Nat), 0x7BFFF0],
    a + 16 ≤ 0x7C0000 ∧ ∀ w ∈ wordsOf (bankAddr 0 a) 16, damageAt State.reset w = none := by decide +kernel

/-- The return stack empty at its base, and its words. -/
def stacked (gs : List (BitVec 5 × Word)) (rsp : Nat) (l : List Word) : State :=
  let s := pilots gs l
  { s with plt := { s.plt with rslo := 0x7C0000, rshi := 0x7C0010, rsp := BitVec.ofNat 32 rsp } }

theorem witness_branches : ∀ p ∈ [(0x800, (0 : Word)), (0x800, 1), (0x840, 0), (0x840, 1)],
    let w := word p.1 7 0 0 3
    let s := pilots [(7, p.2)] [w]
    Executes s (afterFetch s) w p.1 ∧ Settled (afterFetch s) [rd w] ∧
      (gprAt (afterFetch s) (rd w) = 0 ↔ p.2 = 0) := by decide +kernel

theorem witness_jumps : ∀ c ∈ [0x880, 0x109],
    let w := word c 0 5 0 0
    let s := pilots [(5, 0x100)] [w]
    Executes s (afterFetch s) w c ∧ Settled (afterFetch s) [ra w] ∧
      (gprAt (afterFetch s) (ra w)).toNat % 4 = 0 := by decide +kernel

theorem witness_calls : ∀ c ∈ [0x8C0, 0x10A], ∀ rsp ∈ [0x7C0004, 0x7C0010],
    let w := word c 0 5 0 0
    let s := stacked [(5, 0x100)] rsp [w]
    let t := afterFetch s
    let bs := (List.range 4).map fun i => BitVec.ofNat 8 ((t.plt.pc + 4).toNat / 256 ^ i)
    Executes s t w c ∧ t.plt.rslo.toNat + 4 ≤ t.plt.rsp.toNat ∧ t.plt.rsp.toNat ≤ t.plt.rshi.toNat ∧
      (homeWrite t 0 (t.plt.rsp.toNat - 4) bs).2 = true ∧ Settled t [ra w] ∧ (gprAt t (ra w)).toNat % 4 = 0 ∧
      (t.plt.pc + jumpOff w).toNat % 4 = 0 := by decide +kernel

theorem witness_ret : ∀ rsp ∈ [0x7C0000, 0x7C000C],
    let w := word 0x10B 0 0 0 0
    let s := stacked [] rsp [w]
    let t := afterFetch s
    Executes s t w 0x10B ∧ t.plt.rslo.toNat ≤ t.plt.rsp.toNat ∧ t.plt.rsp.toNat + 4 ≤ t.plt.rshi.toNat ∧
      (homeRead t 0 t.plt.rsp.toNat 4).2.1 = false ∧ numOf (homeRead t 0 t.plt.rsp.toNat 4).2.2 % 4 = 0 := by
  decide +kernel

theorem witness_stackWords : ∀ c ∈ [0x10C, 0x10D], ∀ g ∈ [0x7C0000, 0x7FFFFC],
    let w := word c (if c = 0x10C then 7 else 0) 5 (if c = 0x10C then 0 else 6) 0
    let s := pilots [(5, BitVec.ofNat 32 g), (6, 3)] [w]
    let t := afterFetch s
    let a := (gprAt t (ra w)).toNat
    Executes s t w c ∧ Settled t [ra w, rb w] ∧ a % 4 = 0 ∧ 0x7C0000 ≤ a ∧ a < 0x800000 ∧
      (homeRead t 0 a 4).2.1 = false ∧
      (homeWrite t 0 a ((List.range 4).map fun i => BitVec.ofNat 8 ((gprAt t (rb w)).toNat / 256 ^ i))).2 = true ∧
      dbpHit t false (pilotBytes a 4) = false ∧ dbpHit t true (pilotBytes a 4) = false := by decide +kernel

theorem witness_system : ∀ c ∈ [0x102, 0x105, 0x106, 0x108, 0x103, 0x104], ∀ brkHalts ∈ [true, false],
    let w := word c 0 0 0 0
    let s := setField (pilots [] [w]) Reg.dbgCtl 4 4 (if brkHalts = true then 1 else 0)
    let t := afterFetch s
    Executes s t w c ∧ t.plt.pl ≠ 3 ∧ 1 ≤ t.plt.pl.toNat ∧ bits (savedAt t t.plt.pl.toNat).st 1 0 ≤ t.plt.pl.toNat ∧
      getFlag t Reg.dbgCtl 4 = brkHalts := by decide +kernel

/-- A block instruction from 0x2010 to 0x1030. -/
def blockAt (c count : Nat) : State :=
  pilots [(7, 0x1030), (5, 0x2010), (6, BitVec.ofNat 32 count)] [word c 7 5 6 0]

theorem witness_blockInstructions : ∀ c ∈ [0x10E, 0x10F, 0x110], ∀ count ∈ [0, 70],
    let w := word c 7 5 6 0
    let s := blockAt c count
    let t := afterFetch s
    Executes s t w c ∧ Settled t [rd w, ra w, rb w] ∧ (gprAt t (rb w)).toNat = count ∧ (gprAt t (rd w)).toNat = 0x1030 ∧
      (gprAt t (ra w)).toNat = 0x2010 := by decide +kernel

theorem witness_bmove : ∀ n ∈ [16],
    let t := afterFetch (blockAt 0x10E 70)
    let x := pilotLoad t .pilot 0x2010 n
    let y := moveBytes x.1 0x2010 0x1030 70 x.2.2.1
    blockRefusal t (some 0x2010) (some 0x1030) n = none ∧ x.2.1 = .ok ∧ (pilotStore y.1 .pilot 0x1030 y.2 0).2.1 = .ok ∧
      (dbpHit t false (pilotBytes 0x2010 n) || dbpHit t true (pilotBytes 0x1030 n)) = false := by decide +kernel

theorem witness_bfill : ∀ n ∈ [16],
    let t := afterFetch (blockAt 0x10F 70)
    let fill := (List.range n).map fun i => BitVec.ofNat 8 (0x2010 / 256 ^ ((0x1030 + i) % 4))
    blockRefusal t none (some 0x1030) n = none ∧ (pilotStore t .pilot 0x1030 fill 0).2.1 = .ok ∧
      dbpHit t true (pilotBytes 0x1030 n) = false := by decide +kernel

theorem witness_blockInBankZero :
    (let t := afterFetch (blockAt 0x10E 70)
     t.plt.pl ≠ 0 ∧ InBankZero t 0x1030 16 ∧ InBankZero t 0x2010 16 ∧
       (dbpHit t false (pilotBytes 0x2010 16) || dbpHit t true (pilotBytes 0x1030 16)) = false) ∧
    (let t := afterFetch (blockAt 0x110 70)
     t.plt.pl ≠ 0 ∧ InBankZero t 0x2010 48) := by decide +kernel

theorem witness_bcrc : ∀ n ∈ [48],
    let t := afterFetch (blockAt 0x110 70)
    blockRefusal t (some 0x2010) none n = none ∧ (pilotLoad t .pilot 0x2010 n).2.1 = .ok ∧
      dbpHit t false (pilotBytes 0x2010 n) = false := by decide +kernel

theorem witness_illegalAndPrivileged : ∀ n ∈ [0xFFFFFFFF, 0x10000002],
    let w := BitVec.ofNat 32 n
    let p := pilots [] [w]
    let s := { p with plt := { p.plt with pl := 0 } }
    let t := afterFetch s
    mayExecute s = true ∧ ibpHit s = false ∧ fetchNext s = (t, .inl w) ∧ s.plt.pl ≠ 3 ∧ t.plt.pl = s.plt.pl ∧
      (n = 0xFFFFFFFF → validWord w = false) ∧
      (n ≠ 0xFFFFFFFF → validWord w = true ∧ s.plt.pl.toNat < needLevel w) := by decide +kernel

/-- Accesses at the edges of what a cause refuses. -/
theorem witness_refusals :
    let t := pilots [] []
    (∀ a ∈ [0x7C0000, 0x7FFFFC], refusal t (access t false false) a 4 = some (4, [1], false)) ∧
      (∀ a ∈ [0xF0000001, 0xF0CFFFFF], refusal t (access t false false) a 4 = some (3, [2], false)) ∧
      (∀ a ∈ [0x1000000, 0x17FFFFC], refusal t { access t false false with level := 0 } a 4 = some (4, [2], false)) ∧
      ∀ a ∈ [0x17FFF00, 0x17FFFFC], refusal t (access t true false) a 4 = some (4, [4], false) := by decide +kernel

/-- A load, a store and a store-conditional that a cause refuses, at level 2 and at level 3. -/
theorem witness_refusedAccesses : ∀ p ∈ [(0x500, false, false), (0x680, true, false), (0x6C0, true, true)], ∀ l ∈ [2, 3],
    let w := if p.1 = 0x500 then word p.1 7 5 0 0 else if p.1 = 0x680 then word p.1 6 5 0 0 else word p.1 7 5 6 0
    let q := pilots [(5, 0x7BFFFE), (6, 9)] [w]
    let s := { q with plt := { q.plt with pl := BitVec.ofNat 2 l } }
    let t := afterFetch s
    Executes s t w p.1 ∧ Settled t [ra w, rb w, rd w] ∧ t.plt.pl = BitVec.ofNat 2 l ∧
      (refusal t (access t p.2.1 p.2.2) 0x7BFFFE 4).isSome = true := by decide +kernel

/-- A load and a store of Bank 1 over a damaged word. -/
theorem witness_damagedAccesses : ∀ st ∈ [true, false],
    let w := if st = true then word 0x600 6 5 0 0 else word 0x500 7 5 0 0
    let q := pilots [(5, 0x1000100)] [w]
    let s := { q with mem := { q.mem with damage := [(bankAddr 1 0x100 / 8, .uncorrectable)] } }
    let t := afterFetch s
    Executes s t w (if st = true then 0x600 else 0x500) ∧ Settled t [ra w, rd w] ∧
      (st = false → refusal t (access t false false) 0x1000100 4 = none ∧ (pilotLoad t .pilot 0x1000100 4).2.1 ≠ .ok) ∧
      (st = true → refusal t (access t true false) 0x1000100 1 = none ∧
        (pilotStore t .pilot 0x1000100 [0] 0).2.1 ≠ .ok) := by
  decide +kernel

/-- Calls and returns at and beyond the bounds of the return stack, and with targets that are not aligned. -/
theorem witness_refusedCalls : ∀ c ∈ [0x8C0, 0x10A, 0x10B],
  ∀ p ∈ [(0x7C0000, 0x100), (0x7C0014, 0x100), (0x7C0004, 0x102), (0x7BFFF8, 0x100)],
    let w := word c 0 5 0 0
    let s := stacked [(5, BitVec.ofNat 32 p.2)] p.1 [w]
    let t := afterFetch s
    Executes s t w c ∧ Settled t [ra w] ∧ t.plt.rslo = 0x7C0000 ∧ t.plt.rshi = 0x7C0010 ∧
      t.plt.rsp = BitVec.ofNat 32 p.1 ∧
      (gprAt t (ra w)).toNat = p.2 := by decide +kernel

/-- A JR and an RSLD whose address is not aligned, an RSST outside its region, and an RTE above its level. -/
theorem witness_refusedJumps : ∀ p ∈ [(0x109, 0x102, 0), (0x10C, 0x7C0002, 0), (0x10D, 0x7BFFFC, 0), (0x102, 0, 3)],
    let w := word p.1 (if p.1 = 0x10C then 7 else 0) (if p.1 = 0x102 then 0 else 5) (if p.1 = 0x10D then 6 else 0) 0
    let q := pilots [(5, BitVec.ofNat 32 p.2.1)] [w]
    let s := { q with plt := { q.plt with save2 := { q.plt.save2 with st := BitVec.ofNat 32 p.2.2 } } }
    let t := afterFetch s
    Executes s t w p.1 ∧ Settled t [ra w, rb w] ∧ 1 ≤ t.plt.pl.toNat ∧ (p.1 ≠ 0x102 → (gprAt t (ra w)).toNat = p.2.1) ∧
      (p.1 = 0x102 → t.plt.pl.toNat < bits (savedAt t t.plt.pl.toNat).st 1 0) := by decide +kernel

/-- A RET that pops an address which is not aligned, or a damaged word. -/
theorem witness_poppedAddress : ∀ bad ∈ [true, false],
    let w := word 0x10B 0 0 0 0
    let q := stacked [] 0x7C000C [w]
    let s := { q with mem := { (memWrite q false (bankAddr 0 0x7C000C) [2, 1, 0, 0]).1.mem with
      damage := if bad = true then [(bankAddr 0 0x7C000C / 8, .uncorrectable)] else [] } }
    let t := afterFetch s
    Executes s t w 0x10B ∧ t.plt.rslo.toNat ≤ t.plt.rsp.toNat ∧ t.plt.rsp.toNat + 4 ≤ t.plt.rshi.toNat ∧
      (homeRead t 0 t.plt.rsp.toNat 4).2.1 = bad ∧
      (bad = false → numOf (homeRead t 0 t.plt.rsp.toNat 4).2.2 % 4 ≠ 0) := by decide +kernel

/-- Lines 4 and 9 pending and enabled at levels 1 and 2. -/
def lined (alarms : List (BitVec 8)) : State :=
  let p := setReg (setReg (pilots [] []) Reg.pltIrqEn 0x10) Reg.pltIrqLvl 0x95555
  { p with plt := { p.plt with pl := 0, ldrReq := true, wdogStage := true, wdogEn := true, alarms := alarms } }

theorem witness_interrupts :
    pilotsRun (lined []) = true ∧ firstLine (lined []) = some 9 ∧ lineLevel (lined []) 9 = 2 ∧
      (∀ j < 10, lineLevel (lined []) j = 1 ∨ lineLevel (lined []) j = 2) ∧ lineTakeable (lined []) 4 = true ∧
      pilotsRun (lined [2]) = true ∧ (lined [2]).plt.pl ≠ 3 ∧ (lined [2]).plt.alarms = [2] := by decide +kernel

theorem witness_watchdog : ∀ stage ∈ [true, false],
    let s := { lined [] with plt := { (lined []).plt with wdogStage := stage, wdogCnt := 0, pl := 3 } }
    pilotsRun s = true ∧ s.plt.wdogEn = true ∧ wdogLeft s = 0 ∧ s.plt.wdogStage = stage ∧
      writerMay s .pilot Reg.pltWdogKick = true ∧ writerMay (pilots [] []) .pilot Reg.pltWdogCtl = true ∧
      (pilots [] []).plt.wdogEn = false := by decide +kernel

theorem witness_watchdogRefused :
    pilotsRun (lined []) = true ∧ (lined []).plt.pl = 0 ∧
      (let s := { lined [] with plt := { (lined []).plt with pl := 3 } }
       writerMay s .pilot Reg.pltWdogKick = true ∧ bits (0 : Word) 15 0 ≠ 0xA5C3) := by decide +kernel

theorem witness_lockstep :
    (∀ held ∈ [true, false], ∀ halted ∈ [true, false],
      let s := { pilots [] [] with helm := { (pilots [] []).helm with held := held, dbgHalt := halted } }
      pilotsLive s = true ∧ s.plt.solo = false ∧ s.helm.held = held ∧ s.helm.dbgHalt = halted ∧
        s.helm.dbgStep = false) ∧
      (let s := { pilots [] [] with plt := { (pilots [] []).plt with frozen := true } }
       s.hx1 = true ∧ s.plt.frozen = true ∧ s.wdn.held = false) := by decide +kernel

/-! ## The Helm -/

/-- A microword with fields at their lowest bits. -/
def mword (l : List (Nat × Nat)) : BitVec 192 := BitVec.ofNat 192 (l.foldl (fun v p => v + p.2 * 2 ^ p.1) 0)

def firmwareKernel : KernelReq := kernelOfBlock 0 .firmware
def context : KernelCtx := { startContext firmwareKernel with next := 0x7FFF, stack := [5, 6], lc0 := 2, lc1 := 1 }

/-- A member of an installation in RUN whose four edges are open, with variable 5. -/
def member : State :=
  let s := { State.reset with
    mode := .run
    ttb := { State.reset.ttb with ticked := true }
    plt := { State.reset.plt with started := true, pl := 2 }
    fry := { State.reset.fry with known := [⟨7, 0, true, 0, 1, 1, false, 0⟩], node := 9 }
    helm := { State.reset.helm with desc := [(5, 0x83080003)] } }
  (List.range 4).foldl (fun s i => setPort (setReg s (Reg.fryPctl + 0x20 * i) 0x80000000) (BitVec.ofNat 2 i)
    { portAt s (BitVec.ofNat 2 i) with phase := .up, farNode := 7 }) s

/-- The member with a kernel whose next microword has the given fields. -/
def issuing (l : List (Nat × Nat)) : State :=
  { member with helm := { member.helm with run := some context, store := [(0x7FFF, mword l)] } }

/-- Ports A and B on constants, port W on variable 5; SEQ, the clock length and the fields given. -/
def fieldsOf (seq : Nat) (l : List (Nat × Nat)) : List (Nat × Nat) :=
  [(0, seq), (43, 3), (47, 2), (67, 2), (87, 1 + 16 * 5 * 64)] ++ l

theorem witness_microword : ∀ seq ∈ [1, 2, 3, 4, 5, 6, 7], ∀ buses ∈ [0, 1, 2],
    let s := issuing (fieldsOf seq [(146, buses), (148, buses)])
    let m := Micro.of (mword (fieldsOf seq [(146, buses), (148, buses)]))
    Issues s context m ∧ m.spec = 0 ∧ m.probe = 0 ∧ m.flag = 0 ∧ m.seq = seq ∧
      (readPort s context m.pa 0).1.plane? = none ∧ (readPort s context m.pb 0).1.plane? = none ∧ 4 ≤ m.clen ∧
      ((writePort s context m.pw).plane).isSome = true := by decide +kernel

theorem witness_probeAndFlag : ∀ probe ∈ [1, 2, 3], ∀ track ∈ [none, some (⟨1, 5, none, 0⟩ : Tracker)],
    let k := { context with track := track }
    let p := issuing (fieldsOf 1 [(157, probe), (159, 2)])
    let s := { p with helm := { p.helm with run := some k } }
    let m := Micro.of (mword (fieldsOf 1 [(157, probe), (159, 2)]))
    Issues s k m ∧ m.spec = 0 ∧ m.probe = probe ∧ s.arr.d = 0 ∧ flagWrite s k m = some 4073 ∧
      (writePort s k m.pw).plane ≠ some 4073 ∧ ((writePort s k m.pw).plane).isSome = true ∧
      (probeTaken s k m = if probe = 1 ∨ track ≠ none then some (5, 0) else none) := by decide +kernel

/-- Two ACLK with the row bus on and no plane written. -/
theorem witness_shortMicroword :
    let l := [(0, 1), (43, 1), (47, 2), (67, 2), (87, 2), (146, 1)]
    let m := Micro.of (mword l)
    Issues (issuing l) context m ∧ m.spec = 0 ∧ m.clen = 2 ∧ m.rbus = 1 ∧
      (writePort (issuing l) context m.pw).plane = none ∧
      m.ldd ≠ 3 := by decide +kernel

theorem witness_specialOperations : ∀ spec ∈ [1, 2, 3, 4, 5, 6], ∀ count ∈ [0, 1],
    let s := issuing (fieldsOf 1 [(162, spec), (27, count)])
    let m := Micro.of (mword (fieldsOf 1 [(162, spec), (27, count)]))
    Issues s context m ∧ m.spec = spec ∧ m.haloOk = decide (count = 1) ∧ edgeOpen s (dirSide m.dir) = true ∧ m.red = 0 ∧
      (writePort s context m.pw).var = some (5, 0) ∧ s.helm.waited = false ∧
      (let u := { s with helm := { s.helm with waited := true } }
       Issues u context m ∧ u.helm.waited = true) ∧
      (let u := { s with fry := { s.fry with out := true } }
       Issues u context m ∧ edgeOpen u (dirSide m.dir) = false) := by decide +kernel

/-- The member's kernel with reductions, probes and commits in flight. -/
def busyKernel (red : List Reduction) (probes : List ProbeRes) (commits : List Tracker) : State :=
  let s := issuing []
  { s with
    helm := { s.helm with red := red, probes := probes, commits := commits }
    fry := { s.fry with verdict := some (instSail s, []), contrib := [⟨7, instSail s, 0, true, 55⟩] } }

/-- Censuses and global ORs: local, or the k-th of their installation, sailing 0. -/
def census (n : BitVec 4) (inst : Option Nat) (v : Nat) : Reduction := ⟨some n, inst, v, 0, 0, 9⟩
def globalOr (inst : Option Nat) : Reduction := ⟨none, inst, 1, 0, 0, 9⟩

theorem witness_outstanding :
    (busyKernel [] [] []).helm.run = some context ∧
      (let s := busyKernel [census 3 none 777, globalOr none] [] []
       s.helm.red = [census 3 none 777] ++ globalOr none :: [] ∧ ∀ x ∈ [census 3 none 777], x.slot.isSome = true ∧
         x.inst = none) ∧
      (∃ x ∈ [census 3 (some 0) 777], x.inst.isSome = true) ∧
      (∀ x ∈ [globalOr none], x.slot = none) ∧
      (let s := busyKernel [globalOr none, census 4 (some 0) 100] [] []
       s.helm.red = [globalOr none] ++ census 4 (some 0) 100 :: [] ∧ verdictHere s 0 = true ∧
         allContributed s 0 0 = true ∧
         ∀ x ∈ [globalOr none], x.slot.isSome ≠ (census 4 (some 0) 100).slot.isSome ∧ ∀ j, x.inst = some j → False) ∧
      (let s := busyKernel [] [⟨1, 4, true, 30⟩] [⟨2, 5, none, 40⟩]
       s.helm.probes = [⟨1, 4, true, 30⟩] ∧ s.helm.commits = [⟨2, 5, none, 40⟩] ∧ ∀ p ∈ s.helm.probes, p.seq ≠ 2) := by
  decide +kernel

/-- A HALOW that waits, with a COND that a global OR settles, or with a RET whose stack is empty; its side open or
closed. -/
theorem witness_halow : ∀ fresh ∈ [[3, 4], [4]], ∀ fails ∈ [true, false], ∀ closed ∈ [true, false],
    let k := if fails = true then { context with stack := [] } else context
    let s := issuing (fieldsOf (if fails = true then 4 else 1) [(162, 3), (27, 1), (4, if fails = true then 0 else 1)])
    let u := { s with
      helm := { s.helm with run := some k, halow := some ⟨.east, 3, 2, 0⟩ }
      fry := { s.fry with fresh := fresh, out := closed }, now := 70000000 }
    u.helm.run = some k ∧ u.helm.halow = some ⟨.east, 3, 2, 0⟩ ∧ waitOpen u = true ∧
      ((∀ x ∈ haloKeys .east 3 2, x ∈ u.fry.fresh) ↔ fresh = [3, 4]) ∧ edgeOpen u .east = !closed ∧
      0 + 1000 * getField u Reg.fryTmo 7 0 < u.now ∧ stalled u k (fetched u k) = false ∧
      stackFails k (fetched u k) = fails ∧ k.req.owner = .firmware ∧ u.ttb.ckWait = false ∧
      (fails = false → stalled { u with helm := { u.helm with red := [globalOr none] } } k (fetched u k) = true) := by
  decide +kernel

/-- The Helm's queues with n normal and m urgent kernels. -/
def queued (n m : Nat) : State :=
  { member with helm := { member.helm with
      nq := List.replicate n firmwareKernel, uq := List.replicate m { firmwareKernel with urgent := true } } }

theorem witness_kernelSubmit : ∀ p ∈ [(0, 63), (0, 64), (0x01000000, 7), (0x01000000, 8)],
    let s := setReg (queued p.2 p.2) (Reg.hlmKsub + 4) (BitVec.ofNat 32 p.1)
    writerMay s .pilot Reg.hlmKsubGo = true ∧ runs s = true ∧
      (kernelOfBlock (stagedBlock s Reg.hlmKsub) .firmware).urgent = decide (p.1 ≠ 0) := by decide +kernel

theorem witness_kernelQueues :
    mayStart (queued 2 1) = true ∧ mayStart (queued 2 0) = true ∧ (queued 2 0).helm.preempted = none ∧
      writerMay (queued 2 0) .pilot Reg.hlmCmd = true ∧ (∀ k ∈ (queued 2 0).helm.nq, k.owner = .firmware) ∧
      (queued 2 0).ttb.ckWait = false := by decide +kernel

/-- The member with a kernel at its end, at a landing, or preempted. -/
def kernelAt (k : KernelCtx) : State :=
  { member with helm := { member.helm with run := some k, landing := true } }
def preempted : State := { member with helm := { member.helm with preempted := some context } }

theorem witness_kernelEnd :
    let s := kernelAt { context with ended := true }
    s.helm.run = some { context with ended := true } ∧ outstanding s.helm = false ∧ s.helm.held = false ∧
      s.helm.paused = false ∧ stopOrdered s = none ∧ context.req.owner = .firmware ∧ s.ttb.ckWait = false ∧
      (let u := kernelAt { context with halt := some 3 }
       u.helm.run = some { context with halt := some 3 } ∧ outstanding u.helm = false ∧ u.ttb.ckWait = false) := by
  decide +kernel

theorem witness_kernelResume :
    preempted.helm.preempted = some context ∧ preempted.hx1 = true ∧ runs preempted = true ∧ preempted.helm.run = none ∧
      preempted.helm.uq = [] ∧ preempted.helm.held = false ∧ preempted.helm.dbgHalt = false ∧
      preempted.helm.paused = false ∧ preempted.flt.repair = none := by decide +kernel

theorem witness_landlateAndParity :
    let s := setReg (issuing []) Reg.hlmLspan 100
    s.hx1 = true ∧ s.helm.run.isSome = true ∧ getField s Reg.hlmLspan 15 0 = 100 ∧ gapNow s ≤ 101 ∧
      s.helm.gapLate = false ∧ mayIssue s = some context ∧ outstandingHere s.helm = false ∧
      outstandingHere { s.helm with red := [globalOr none] } = true := by decide +kernel

/-- A microword with no SEQ of its own, and a RET whose stack is empty. -/
theorem witness_stoppedKernels : ∀ seq ∈ [0, 8, 4],
    let k := { context with stack := [] }
    let s := issuing [(0, seq), (43, 3), (47, 2), (67, 2), (87, 2)]
    let u := { s with helm := { s.helm with run := some k } }
    let m := fetched u k
    mayIssue u = some k ∧ debugHolds u.helm = false ∧ parityFails u k = false ∧ m.spec = 0 ∧ k.req.owner = .firmware ∧
      u.ttb.ckWait = false ∧ m.seq = seq ∧ (seq = 4 → stalled u k m = false ∧ stackFails k m = true) := by decide +kernel

theorem witness_requests :
    let s := kernelAt context
    s.hx1 = true ∧ s.helm.landing = true ∧ outstanding s.helm = false ∧ stopOrdered s = none ∧ s.helm.held = false ∧
      s.helm.holdReq = false ∧ s.helm.dbgHalt = false ∧ s.helm.dbgReq = false ∧ s.helm.run = some context ∧
      context.req.owner = .firmware ∧ s.ttb.ckWait = false ∧ context.req.abandoned = false ∧ s.helm.uq = [] ∧
      s.helm.preempted = none ∧ context.req.urgent = false := by decide +kernel

theorem witness_faultStop :
    let r : Repair := ⟨.stopping, .full, [], 0, [], 0, 0⟩
    let s := { kernelAt context with flt := { member.flt with repair := some r } }
    s.hx1 = true ∧ s.helm.landing = true ∧ outstanding s.helm = false ∧ stopOrdered s = some r ∧
      (let u := { s with helm := { s.helm with landing := false, run := some { context with ended := true } } }
       outstanding u.helm = false ∧ stopOrdered u = some r) := by decide +kernel

/-- A NOTIFY that finds its queue full is stalled while a hold is requested. -/
theorem witness_stallHold :
    let p := issuing (fieldsOf 1 [(162, 6)])
    let s := { p with helm := { p.helm with holdReq := true, notifyQ := List.replicate 16 0 } }
    s.hx1 = true ∧ stopOrdered s = none ∧ debugHolds s.helm = false ∧ s.helm.landing = false ∧ unitStall s = true ∧
      outstandingHere s.helm = false := by decide +kernel

/-- An idle Helm at a landing, with no request or with the debugger's. -/
theorem witness_idleLanding : ∀ req ∈ [true, false],
    let s := { member with helm := { member.helm with dbgReq := req } }
    s.hx1 = true ∧ s.helm.run = none ∧ outstanding s.helm = false ∧ stopOrdered s = none ∧ s.helm.held = false ∧
      s.helm.holdReq = false ∧ s.helm.dbgHalt = false ∧ s.helm.dbgReq = req := by decide +kernel

/-- An abandoned kernel, one that an urgent kernel preempts, and one that STOP meets. -/
theorem witness_endingKernels : ∀ abandoned ∈ [true, false], ∀ urgent ∈ [true, false],
    let k := { context with req := { firmwareKernel with abandoned := abandoned } }
    let p := kernelAt k
    let s := { p with helm := { p.helm with stopReq := true, uq := if urgent = true then [{ firmwareKernel with urgent := true }] else [] } }
    s.helm.run = some k ∧ k.req.abandoned = abandoned ∧ k.req.urgent = false ∧ s.helm.preempted = none ∧
      (s.helm.uq ≠ [] ↔ urgent = true) ∧ s.helm.stopReq = true ∧ s.helm.landing = true ∧ s.ttb.ckWait = false := by
  decide +kernel

theorem witness_patch :
    let s := { setReg member Reg.hlmPatch 1 with ttb := { member.ttb with sentFor := some member.ttb.sail } }
    s.hx1 = true ∧ bit (reg s Reg.hlmPatch) 0 = true ∧ bit (reg s Reg.hlmPatch) 1 = false ∧ s.helm.run = none ∧
      s.helm.preempted = none ∧ s.helm.nq = [] ∧ s.helm.uq = [] ∧ s.ttb.ticked = true ∧ s.ttb.sentFor = some s.ttb.sail ∧
      writerMay s .pilot Reg.hlmPatch = true ∧ writerMay s .pilot Reg.hlmPatchCommit = true ∧
      writerMay s .pilot Reg.hlmFpevPop = true ∧ bit (reg (setReg s Reg.hlmPatch 3) Reg.hlmPatch) 1 = true := by
  decide +kernel

/-! ## Loader and Timetable unit -/

/-- A block with values at byte offsets. -/
def block (l : List (Nat × Nat)) : Block32 := BitVec.ofNat 256 (l.foldl (fun v p => v + p.2 * 2 ^ (8 * p.1)) 0)

/-- A 4 × 6 window of byte containers into 16 absolute planes from 100, pitch given by its low bytes. -/
def window (target : Nat) : Block32 :=
  block [(0, 0x1000), (8, 1), (9, 1 + 32), (10, target), (12, 16), (17, 1), (20, 3), (22, 5), (24, 4), (26, 6),
    (28, 0x77)]

def staged (s : State) (base : Nat) (b : Block32) : State :=
  (List.range 8).foldl (fun s i => setReg s (base + 4 * i) (b.extractLsb' (32 * i) 32)) s

/-- The Loader with n transfers that wait, a transfer in progress, or a checkpoint. -/
def loading (n : Nat) (run : Option Running) : State :=
  { member with ldr := { member.ldr with queue := List.replicate n ⟨window 100, true, .firmware⟩, run := run } }

theorem witness_transferSubmit : ∀ n ∈ [0, 31, 32], ∀ target ∈ [100, 4090], ∀ ld ∈ [true, false],
    let s := staged (loading n none) Reg.ldrXsub (window target)
    writerMay s .pilot Reg.ldrXsubGo = true ∧ runs s = true ∧ s.ldr.queue.length = n ∧
      (checkTransfer s (Xfer.of (stagedBlock s Reg.ldrXsub)) ld = 0 ↔ target = 100) := by decide +kernel

/-- A transfer in progress. -/
def moving (w : Option (Nat × Nat)) (waits : Bool) : Running :=
  ⟨⟨window 100, true, .firmware⟩, 0, w, 7, waits, [], ⟨[], []⟩, ⟨[], []⟩⟩

theorem witness_stealAndComplete : ∀ w ∈ [none, some (5, 9)], ∀ n ∈ [20, 19],
    let r := moving w false
    let l := loading 0 (some r)
    let s := setReg { l with helm := { l.helm with
      run := some context, store := [(0x7FFF, mword (fieldsOf 1 []))], noSlot := ⟨0, 0, n, 0⟩ } } Reg.hlmShare 3
    mayIssue s = some context ∧ debugHolds s.helm = false ∧ stalled s context (fetched s context) = false ∧
      slotsWait s = false ∧ s.helm.steal = false ∧ getField s Reg.hlmShare 5 0 = 3 ∧ (100, true) ∈ slotNeeds s ∧
      (64 / 3 - 1 ≤ s.helm.noSlot.of 100 true ↔ n = 20) ∧
      (n = 19 → ∀ p ∈ slotNeeds s, s.helm.noSlot.of p.1 p.2 < 64 / 3 - 1) ∧
      s.ldr.run = some r ∧ r.waits = false ∧ r.width = w ∧ r.tr.owner = .firmware := by decide +kernel

theorem witness_loadAndStore : ∀ ld ∈ [true, false],
    let s := { loading 0 none with ldr := { member.ldr with queue := [⟨window 100, ld, .firmware⟩] } }
    let x := Xfer.of (window 100)
    loaderFree s = true ∧ slotsWait s = false ∧ slotsWait { s with helm := { s.helm with paused := true } } = true ∧
      loaderFree { s with helm := { s.helm with paused := true } } = true ∧
        s.ldr.queue = [⟨window 100, ld, .firmware⟩] ∧ PlainTransfer s x ∧ x.cont ≠ 0 ∧ x.map = 0 ∧
      x.wn * x.size ≤ x.pitch := by decide +kernel

/-- `ElementsApart`, element by element. -/
def elementsApart (x : Xfer) : Bool :=
  let l := (List.range x.h).flatMap fun j => (List.range x.wn).map fun i => (j, i)
  l.all fun p => l.all fun q => decide (p = q) ||
    let a := elementBits x p.1 p.2
    let b := elementBits x q.1 q.2
    decide (a.1 + a.2 ≤ b.1) || decide (b.1 + b.2 ≤ a.1)

theorem elementsApart_sound (x : Xfer) (h : elementsApart x = true) : ElementsApart x := by
  intro j hj i hi j' hj' i' hi' hne
  have mem (j i : Nat) (hj : j < x.h) (hi : i < x.wn) :
      (j, i) ∈ (List.range x.h).flatMap fun j => (List.range x.wn).map fun i => (j, i) := by simp [hj, hi]
  have := List.all_eq_true.1 (List.all_eq_true.1 h _ (mem j i hj hi)) _ (mem j' i' hj' hi')
  simp only [Bool.or_eq_true, decide_eq_true_eq, Prod.mk.injEq] at this
  rcases this with ⟨rfl, rfl⟩ | h
  · simp at hne
  · exact h

/-- Windows whose elements lie apart: of bytes in rows, of bits, strided, and tiled. -/
def windows : List Xfer :=
  [[(9, 1 + 32)], [(9, 32)], [(9, 1 + 8 + 32), (13, 2 + 3 * 16)], [(9, 1 + 16 + 32)]].map fun l =>
    Xfer.of (block ([(10, 100), (12, 1), (17, 1), (24, 2), (26, 2)] ++ l))

theorem witness_elementsApart : ∀ x ∈ windows, PlainTransfer member x ∧ ElementsApart x := by
  have h : ∀ x ∈ windows, PlainTransfer member x ∧ elementsApart x = true := by decide +kernel
  exact fun x hx => ⟨(h x hx).1, elementsApart_sound x (h x hx).2⟩

theorem witness_checkpoint :
    let s := { member with ldr := { member.ldr with ckpt := some ([5, 9], 6) } }
    s.mem.damage = [] ∧ s.arr.damage = [] ∧ slotsWait s = false ∧ s.ldr.ckpt = some ([5, 9], 6) ∧ s.ldr.run = none ∧
      s.flt.repair = none ∧ s.wdn.held = false := by decide +kernel

theorem witness_restore : ∀ c ∈ [RepairCase.rollback, .full],
    let r : Repair := ⟨.restoring, c, [], 3, [], 0, 0⟩
    let s := { member with ldr := { member.ldr with restore := some [9, 5] }, flt := { member.flt with repair := some r } }
    s.mem.damage = [] ∧ s.arr.damage = [] ∧ slotsWait s = false ∧ s.ldr.restore = some [9, 5] ∧
      s.wdn.held = false ∧ s.flt.repair = some r ∧ r.step = .restoring ∧ r.later = [] ∧ [9, 5].Nodup := by decide +kernel

/-- A Timetable of period 100 and the state in a pass of it. -/
def timetable (policy : Nat) (l : List Entry) : Timetable := ⟨100, BitVec.ofNat 2 policy, 0, 100, 0, l⟩
def entryOf (ty : Nat) (ack : Bool) (deadline : Nat) (payload : Block32) : Entry :=
  ⟨BitVec.ofNat 4 ty, false, ack, 3, 0, deadline, 0x55, payload, []⟩
def sailing (policy : Nat) (l : List Entry) (st : EState) : State :=
  { member with
    now := 50000000
    ttb := { member.ttb with
      cur := timetable policy l, est := l.map fun _ => ⟨st, false, 0, decide (st = .done), 0⟩, phase := .running,
        ckDone := true, sail := 7
      passSail := 7, base := 1000000, tickAt := 1000000, lastTick := 1000000, slots := [(0, some (timetable policy l))]
      tickDue := [3, 4] } }

/-- Two entries of a pass, which its units have, and a kernel or transfer of the second. -/
theorem witness_reports :
    let e := entryOf 1 false 0 0
    let s := sailing 0 [e, e] .submitted
    AwaitsUnit s 7 s.ttb.pass 1 e ∧ (1 : BitVec 4) ≠ 6 := by decide +kernel

theorem witness_ticks : ∀ src ∈ [0, 1, 2, 8, 10], ∀ policy ∈ [0, 1, 2], ∀ st ∈ [EState.pending, .done],
    let p := sailing policy [entryOf 1 false 0 0] st
    let s := { p with
      ttb := { p.ttb with src := BitVec.ofNat 32 src }
      fry := { p.fry with due := some (5, ⟨7, 3, 1, 0⟩) } }
    takesTicks s = true ∧ NoOrders s ∧ s.ttb.tickDue = [3, 4] ∧ 3 ≤ s.now ∧ activePeriod s ≠ 0 ∧
      s.ttb.lastTick + activePeriod s * (100 + bits s.ttb.src 23 17) * 10 ≤ s.now ∧ s.ttb.srcLost = false ∧
      (tickSrc s = src % 4 ∧ (bit s.ttb.src 3 = true ↔ 8 ≤ src)) ∧ (src = 1 → timerTicks s = true) ∧
      (missedNow s = true ↔ st = .pending) ∧ s.ttb.cur.policy.toNat = policy := by decide +kernel

theorem witness_edges : ∀ last ∈ [50000000, 49900000, 49999000],
    let p := sailing 0 [] .pending
    let s := { p with ttb := { p.ttb with src := BitVec.ofNat 32 (75 * 1024), tickDue := [], lastTick := last } }
    takesTicks s = true ∧ tickSrc s = 0 ∧ bit s.ttb.src 2 = false ∧ s.ttb.ticked = true ∧ activePeriod s = 100 ∧
      (activePeriod s * 1000 * bits s.ttb.src 16 10 ≤ (s.now - last) * 100 ↔ last = 49900000) := by decide +kernel

theorem witness_tickSources : ∀ tree ∈ [0, 0x80000000],
    let p := setReg (sailing 0 [] .pending) Reg.ttbSrc 2
    let s := { p with
      ttb := { p.ttb with syncEnd := some 30, ckWait := false }
      fry := { p.fry with tree := BitVec.ofNat 32 tree } }
    writerMay s .pilot Reg.ttbSrcCommit = true ∧ bits (reg s Reg.ttbSrc) 1 0 = 2 ∧
      (upstreamSet s = true ↔ tree = 0) ∧ s.ttb.syncEnd = some 30 ∧ 30 ≤ s.now ∧ s.wdn.held = false ∧
      s.ttb.ckWait = false := by decide +kernel

theorem witness_releases : ∀ ty ∈ [0, 1, 2, 3, 4, 5, 6],
    let e := entryOf ty false 0 (if ty = 2 ∨ ty = 3 then window 100 else 0)
    let s := sailing 0 [e] .pending
    releasable s 0 = some e ∧ lowerFirst s 0 e = false ∧ s.ttb.ckDone = true ∧
      (kernelOfBlock e.payload (.timetable 7 0 0)).urgent = false ∧
      s.helm.nq.length < 64 ∧ s.ldr.queue.length < 32 ∧ (ty = 2 → checkTransfer s (Xfer.of e.payload) true = 0) ∧
      (ty = 3 → checkTransfer s (Xfer.of e.payload) false = 0) := by decide +kernel

theorem witness_releaseOrder :
    let e := entryOf 0 false 0 0
    let s := sailing 0 [e, e] .pending
    releasable s 1 = some e ∧ lowerFirst s 1 e = true := by decide +kernel

/-- The array clock's pause has 5 ns to go, or is over. -/
theorem witness_clockPause : ∀ now_ ∈ [99, 105],
    let s := { member with now := now_, helm := { member.helm with paused := true, pauseEnd := 104 } }
    s.helm.paused = true ∧ (s.helm.pauseEnd ≤ s.now ↔ now_ = 105) ∧ s.ttb.ckWait = false ∧ s.ldr.run = none := by
  decide +kernel

theorem witness_entries : ∀ ack ∈ [true, false], ∀ st ∈ [EState.notifying, .acking, .pending],
    let e := entryOf 5 ack 30 0
    let s := sailing 0 [e] st
    entryAt s 0 = some e ∧ s.hx1 = true ∧ s.wdn.held = false ∧ (estAt s 0).state = st ∧ s.ttb.cut = false ∧
      s.ttb.ntf.length < 16 ∧
      0 < s.ttb.est.length ∧ runs s = true ∧ passRuns s = true ∧ s.ttb.marked = false ∧ e.deadline ≠ 0 ∧
      e.deadline * 1000 ≤ s.now - s.ttb.base ∧ (estAt s 0).finished = false ∧ (estAt s 0).late = false ∧
      writerMay s .pilot Reg.ttbAck = true ∧ writerMay s .pilot Reg.ttbNtfPop = true := by decide +kernel

theorem witness_timetables : ∀ slot ∈ [0, 1],
    let p := sailing 0 [] .pending
    let s := setReg { p with ttb := { p.ttb with tload := some (BitVec.ofNat 4 slot) } } Reg.ttbSw (BitVec.ofNat 32 slot)
    writerMay p .pilot Reg.ttbTloadCommit = true ∧ p.ttb.tload = none ∧ s.ttb.tload = some (BitVec.ofNat 4 slot) ∧
      writerMay s .pilot Reg.ttbSwCommit = true ∧ getField s Reg.ttbSw 3 0 = slot ∧
      (slotOf s slot = none ↔ slot = 1) ∧ s.ttb.pend = none ∧
      (∃ o ∈ ([⟨0, 9, false, some (3, 4), s.now⟩] : List Switch), o.bind.isSome = true ∧ o.since = s.now) ∧
        (checkImage (slotImage s slot).2).1 = 0 ∧
      (checkImage (1 :: (slotImage s slot).2.tail)).1 ≠ 0 ∧ p.ttb.active = 0 ∧ p.ttb.ticked = true ∧
      ({ p with ttb := { p.ttb with ticked := false } } : State).ttb.ticked = false := by decide +kernel

theorem witness_timetableCompletion :
    let pair : Pair := { Pair.none with st := .active, ctype := 1, client := 77, cqSize := 8, cqTail := 7, cqHead := 1, phase := true }
    let c : TtbCompletion := ⟨5, 0x1234, 0, 2, 3, none, true⟩
    let p := sailing 0 [entryOf 1 false 0 0] .done
    let s := { p with ttb := { p.ttb with outq := [c] }, que := { p.que with pairs := [(5, pair)] } }
    s.ttb.outq = [c] ∧ c.past = none ∧ c.live = true ∧ c.idx < 256 ∧ (estAt s c.idx).state ≠ .pending ∧
      c.idx < s.ttb.est.length ∧ s.hx1 = true ∧ s.wdn.held = false ∧
      (pairOf s c.qp.toNat).st = .active ∧ (pairOf s c.qp.toNat).cqSize ≠ 0 ∧ s.que.d3 = false ∧
      cqRoom (pairOf s c.qp.toNat) = true := by decide +kernel

/-! ## Queues, registers and the host -/

def descriptor (l : List (Nat × Nat)) : Raw64 := BitVec.ofNat 512 (l.foldl (fun v p => v + p.2 * 2 ^ (8 * p.1)) 0)

def pairOfType (ty : Nat) (st : QpStatus) : Pair :=
  { Pair.none with
    st := st, ctype := BitVec.ofNat 2 ty, client := if ty = 1 then 77 else if ty = 3 then 4 else 0, sqBase := 0x10000
    cqBase := 0x20000, sqSize := 16, cqSize := 8, sqHead := 14, sqTail := 15, cqHead := 3, cqTail := 4, open_ := true }

/-- The member's pairs, one of each kind and state, and its routes. -/
def paired (run : Bool) : State :=
  let s := setFlag { member with mode := if run = true then .run else .load } Reg.drcStat 1
  { s with que := { s.que with pairs := [(0, pairOfType 0 .active), (5, pairOfType 0 .active), (6, pairOfType 1 .active),
    (7, pairOfType 3 .active), (8, pairOfType 1 .draining), (9, { pairOfType 0 .active with open_ := false })] } }

/-- Pair q of the state with the oldest descriptor r. -/
def headed (run : Bool) (q : Nat) (r : Raw64) : State :=
  setPair (paired run) q { pairOf (paired run) q with fetched := [⟨55, r, false, false⟩] }
def head (r : Raw64) : Fetched := ⟨55, r, false, false⟩

/-- Descriptor 3 of pair q, between others, with some work. -/
def dispatchedOn (q : Nat) (flags : Nat) (w : Work) : State :=
  let d : Dispatched := ⟨3, descriptor [(0, 2), (1, flags)], w, false⟩
  let p := setPair (paired true) 9 { pairOfType 2 .active with client := 9 }
  setPair p q { pairOf p q with disp := [{ d with pos := 2 }, d, { d with pos := 7 }] }

theorem witness_moveCompletion : ∀ q ∈ [5, 6, 7, 9], ∀ st ∈ [0, 9], ∀ flags ∈ [0, 4],
    let d : Dispatched := ⟨3, descriptor [(0, 2), (1, flags)], .move (BitVec.ofNat 8 st), false⟩
    let s := dispatchedOn q flags d.work
    Awaits s (BitVec.ofNat 16 q) 3 d 0x12345 ∧ d.work = .move (BitVec.ofNat 8 st) ∧
      (isNocpl d.raw = true ↔ flags = 4) ∧ ((pairOf s q).ctype = 2 ↔ q = 9) := by decide +kernel

/-- A kernel at its end and a complete transfer, both of descriptor 3 of pair 5. -/
theorem witness_unitCompletion :
    let s := dispatchedOn 5 0 .unit
    let k := { context with req := kernelOfBlock 0 (.queue 5 3), ended := true }
    let r := { moving none false with tr := ⟨window 100, true, .queue 5 3⟩ }
    let u := { s with helm := { s.helm with run := some k }, ldr := { s.ldr with run := some r } }
    u.helm.run = some k ∧ k.req.owner = .queue 5 3 ∧ outstanding u.helm = false ∧ u.ttb.ckWait = false ∧ k.halt = none ∧
      u.helm.held = false ∧ u.helm.paused = false ∧ stopOrdered u = none ∧ u.ldr.run = some r ∧
      r.tr.owner = .queue 5 3 ∧ slotsWait u = false ∧ r.waits = false ∧ r.status = 0 ∧
      Awaits u 5 3 ⟨3, descriptor [(0, 2), (1, 0)], .unit, false⟩ 7 := by decide +kernel

theorem witness_doorbells :
    (paired true).hx1 = true ∧ (paired true).wdn.held = false ∧ (pairOf (paired true) 8).st = .draining ∧
      (pairOf (paired true) 9).open_ = false ∧ (pairOf (paired true) 99).st = .free ∧
      (∀ q ∈ [5, 7], (pairOf (paired true) q).st = .active ∧ (pairOf (paired true) q).open_ = true) ∧
      (pairOf (paired true) 5).ctype.toNat < 2 ∧ 2 ≤ (pairOf (paired true) 7).ctype.toNat ∧
      (let p := pairOf (paired true) 5
       p.sqSize = 16 ∧ p.cqSize = 8 ∧ ringUsed p.cqHead 4 p.cqSize ≤ ringUsed p.cqHead p.cqTail p.cqSize ∧
         ringUsed p.cqHead p.cqTail p.cqSize < ringUsed p.cqHead 5 p.cqSize) := by decide +kernel

theorem witness_descriptorFetch :
    let p := paired true
    let s := setFlag { p with que := { p.que with pairs := [(5, pairOfType 0 .active)] } } Reg.queCtl 0
    s.hx1 = true ∧ s.wdn.held = false ∧ getFlag s Reg.queCtl 0 = true ∧ nextServed s = some 5 ∧
      (pairOf s 5).ctype.toNat < 2 ∧ (pairOf s 5).st = .active ∧ readLength (pairOf s 5) = 1 ∧
        heldCount (pairOf s 5) + 1 ≤ 64 := by decide +kernel

theorem witness_unitCommands : ∀ q ∈ [5, 6], ∀ run ∈ [true, false], ∀ opc ∈ [1, 2, 3, 4, 6, 7],
    let r := descriptor [(0, opc)]
    Dispatches (headed run q r) (BitVec.ofNat 16 q) opc (head r) ∧ runs (headed run q r) = run ∧
      (pairOf (headed run q r) q).disp = [] := by decide +kernel

theorem witness_hostDescriptors : ∀ run ∈ [true, false], ∀ opc ∈ [5, 8],
    let r := descriptor [(0, opc), (16, 1), (7, 0), (6, 1), (8, 4)]
    let s := headed run 5 r
    Dispatches s 5 opc (head r) ∧ runs s = run ∧ slotOf s 1 = none ∧ slotOf (sailing 0 [] .pending) 0 ≠ none ∧
      (sailing 0 [] .pending).ttb.pend = none := by decide +kernel

theorem witness_badDescriptors : ∀ run ∈ [true, false],
    let r := descriptor [(0, 99)]
    let s := setPair (paired run) 5 { pairOfType 0 .active with fetched := [⟨55, r, false, true⟩] }
    readyHead s 5 = some ⟨55, r, false, true⟩ ∧ readyHead (headed run 5 r) 5 = some (head r) ∧
      opcAllowed (opcOf r) 5 (pairOf (headed run 5 r) 5).ctype = false := by decide +kernel

theorem witness_kernelDescriptors : ∀ b ∈ [0, 1],
    let r := descriptor [(0, 1), (16 + 7, b)]
    (kernelOfBlock (argBlock r) (.queue 5 55)).urgent = decide (b = 1) ∧ (headed true 5 r).helm.nq.length < 64 ∧
      (headed true 5 r).helm.uq.length < 8 := by decide +kernel

theorem witness_fences : ∀ scope ∈ [0, 2, 3], ∀ cond ∈ [1, 3],
    let r := descriptor [(0, 6), (4, scope), (5, cond), (16, 0x1234567)]
    let s := headed true 5 r
    Dispatches s 5 6 (head r) ∧ rawField r 4 1 = scope ∧ rawField r 5 1 = cond ∧ (pairOf s 5).disp = [] ∧
      (cond = 1 → fenceCond s 1 (BitVec.ofNat 48 (rawField r 16 6)) = false) := by decide +kernel

theorem witness_fenceComplete : ∀ waits ∈ [[], [(5, 3)]],
    let d : Dispatched := ⟨3, descriptor [(0, 6)], .fence waits 0 0, false⟩
    let s := setPair (paired true) 5 { pairOfType 0 .active with disp := [d] }
    (pairOf s 5).disp = [d] ∧ fenceCond s 0 0 = true ∧ (waits.all (fun w => !(stillThere s w)) = true ↔ waits = []) := by
  decide +kernel

theorem witness_mailbox :
    let p := paired true
    let s := { p with que := { p.que with mail := [⟨7, 5, false, 3⟩] } }
    writerMay s .pilot Reg.queMbDone = true ∧ s.que.mail = [⟨7, 5, false, 3⟩] := by decide +kernel

theorem witness_moves : ∀ p ∈ [(0, 1, 5), (0, 2, 5), (0, 3, 5), (1, 0, 5), (1, 2, 130), (3, 3, 5), (1, 4, 5), (0, 1, 0)],
    let r := descriptor [(0, 2), (4, p.2.2), (8, p.1), (9, p.2.1), (16, 0x1003), (24, 0x1234)]
    let s := headed true 5 r
    let bad := moveRefusal (pairOf s 5) (Space.of p.1) (Space.of p.2.1) 0x1003 0x1234 p.2.2
    let bs := List.replicate p.2.2 (3 : Byte)
    Dispatches s 5 2 (head r) ∧ runs s = true ∧ rawField r 4 4 = p.2.2 ∧ s.que.d3 = false ∧
      (bad = 0 ↔ p.2.1 ≠ 4) ∧
      (∀ b ∈ Space.of p.2.1, b ≠ .host → p.2.2 ≠ 0 → (nocWrite s 11 (b.addr 0x1234) bs []).2 = .ok) ∧
      (∀ a ∈ Space.of p.1, a ≠ .host → p.2.1 ≠ 4 → (nocRead s 11 (a.addr 0x1003) p.2.2).2.1 = .ok ∧
        (nocRead s 11 (a.addr 0x1003) p.2.2).2.2.length = p.2.2) := by decide +kernel

/-- A MOVE to the host whose source has a damaged word. -/
theorem witness_damagedMove :
    let r := descriptor [(0, 2), (4, 16), (8, 1), (9, 0), (16, 0x1000), (24, 0x1234)]
    let p := headed true 5 r
    let s := { p with mem := { p.mem with damage := [(0x1008 / 8, .uncorrectable)] } }
    Dispatches s 5 2 (head r) ∧ runs s = true ∧ s.que.d3 = false ∧
      moveRefusal (pairOf s 5) (some .dram) (some .host) 0x1000 0x1234 16 = 0 ∧
      (nocRead s 11 (Space.dram.addr 0x1000) 16).2.1 = .dataerr ∧
        (nocRead s 11 (Space.dram.addr 0x1000) 16).2.2 ≠ [] := by
  decide +kernel

/-- An ADMIN descriptor on pair 0. -/
def admin (run : Bool) (l : List (Nat × Nat)) : State := headed run 0 (descriptor ([(0, 9)] ++ l))

theorem witness_admin : ∀ acmd ∈ [0, 1, 2, 3, 4, 5, 6, 7], ∀ run ∈ [true, false], ∀ qp ∈ [0, 5, 7, 8, 33],
    let l := [(4, acmd), (16, qp)]
    Dispatches (admin run l) 0 9 (head (descriptor ([(0, 9)] ++ l))) ∧ runs (admin run l) = run ∧
      rawField (descriptor ([(0, 9)] ++ l)) 16 2 = qp ∧
      ((pairOf (admin run l) qp).st = .free ↔ qp = 33) ∧ ((pairOf (admin run l) qp).st = .draining ↔ qp = 8) ∧
      ((pairOf (admin run l) qp).ctype = 3 ↔ qp = 7) := by decide +kernel

theorem witness_createQp : ∀ want ∈ [0, 5, 33],
    let r := descriptor [(0, 9), (4, 2), (16, 0x40), (24, 0x10), (32, 16), (36, 8), (42, want)]
    (createRefusal (headed true 0 r) want (newPair 0 r) = 0 ↔ want ≠ 5) ∧ lowestFree (headed true 0 r) = some 1 := by
  decide +kernel

theorem witness_clientLost : ∀ ty ∈ [1, 2, 3],
    let r := descriptor [(0, 9), (4, 5), (16, ty), (20, 77)]
    rawField r 16 1 = ty ∧ (pairOf (headed true 0 r) 6).ctype = 1 ∧ (pairOf (headed true 0 r) 6).client = 77 := by
  decide +kernel

theorem witness_pairEvents :
    (pairOf (paired true) 8).st = .draining ∧ (pairOf (paired true) 8).disp = [] ∧
      (pairOf (paired true) 0).disp.all (fun d => decide (d.work ≠ .deletePair 8)) = true ∧
      (let s := setPair { paired true with now := 100000 } 5
          { pairOfType 0 .active with modtime := 100, unsig := 3, unsigAt := 0 }
       (pairOf s 5).modtime ≠ 0 ∧ (pairOf s 5).unsig ≠ 0 ∧ (pairOf s 5).unsigAt + (pairOf s 5).modtime * 1000 ≤ s.now ∧
         (pairOf s 5).noirq = false ∧ s.que.funcMask = false ∧ s.wdn.held = false ∧ s.que.d3 = false) := by decide +kernel

theorem witness_adminSetup : ∀ size ∈ [0x00080010, 1],
    let s := setReg State.reset Reg.queAdmSize (BitVec.ofNat 32 size)
    writerMay s .host Reg.queAdmCommit = true ∧ (admRefusal s = 0 ↔ size ≠ 1) := by decide +kernel

theorem witness_asyncEvent :
    let p := paired true
    let s := setFlag { p with que := { p.que with events := [(3, 8)] } } Reg.queCtl 1
    s.que.events = [(3, 8)] ∧ (pairOf s 0).st = .active ∧ (pairOf s 0).cqSize ≠ 0 ∧ cqRoom (pairOf s 0) = true ∧
      s.wdn.held = false ∧ s.que.d3 = false ∧ getFlag s Reg.queCtl 1 = true ∧
        (pairOf s 0).ctype.toNat < 2 := by decide +kernel

theorem witness_plainRegister : PlainReg Reg.hlmLspan := by
  refine ⟨by decide, by decide, by decide, fun s wr v => ?_⟩
  cases wr <;> rfl

theorem witness_registerWrites : ∀ off ∈ [Reg.hlmLspan, Reg.hlmShare, Reg.glbErr],
    WriteLands (paired true) .pilot off ∧ (off ≠ Reg.glbErr →
      WriteLands (setRegion (paired true) 3 { Region.none with phase := .running }) .fabric off ∧
        (fieldsFor .pilot off).length ≠ 0) := by decide +kernel

theorem witness_registerReads : ∀ off ∈ [Reg.hlmLspan, Reg.ttbSailLo, Reg.nocStbyteLo, Reg.ttbRec, Reg.ldrLast],
    off % 4 = 0 ∧ off < 0x4000000 ∧ ReadLands (paired true) .pilot off ∧
      ReadLands (setRegion (paired true) 3 { Region.none with phase := .running }) .fabric off := by decide +kernel

theorem witness_bar4 : ∀ blk ∈ [0, 7],
    let s := setReg (paired true) Reg.queB4base (BitVec.ofNat 32 blk)
    s.hx1 = true ∧ 0 < bar4Size s ∧ bar4Base s + 4 ≤ dramSize ∧ (nocGate s 11 (bar4Base s)).2 = .ok ∧
      s.wdn.held = false ∧ s.mem.damage = [] := by decide +kernel

theorem witness_endpoint :
    let p := paired true
    let s := { p with que := { p.que with perst := true, linkUp := true, msix := [(3, ⟨1, 2, true, true⟩)] } }
    s.hx1 = true ∧ s.que.linkUp = true ∧ s.que.perst = true ∧ s.mode ≠ .standby ∧ p.que.perst = false ∧
      (msixOf s 3).pending = true ∧ (msixOf s 4).pending = false ∧ s.que.funcMask = false ∧ s.wdn.held = false ∧
      s.que.d3 = false ∧ (∀ l, s.dbg.session ≠ some (l, .bar0)) ∧
      (∃ l, (some (2, .bar0) : Option (BitVec 2 × DbgPath)) = some (l, .bar0)) := by
  refine ⟨?_, ?_, ?_, ?_, ?_, ?_, ?_, ?_, ?_, ?_, ?_, ⟨2, rfl⟩⟩ <;> decide +kernel

/-- Pair 5 with a completion kept in D3hot; vector 3 waits under the function mask. -/
theorem witness_d3hot :
    let d : Dispatched := ⟨3, descriptor [(0, 2)], .kept 9 0 7, false⟩
    let p := paired true
    let q := { p with que := { p.que with d3 := true, kept := [(5, 3)] } }
    let s := setPair q 5 { pairOfType 0 .active with disp := [{ d with pos := 2, work := .unit }, d] }
    s.que.kept = [(5, d.pos)] ∧ s.que.msix = [] ∧ (pairOf s 5).disp = [{ d with pos := 2, work := .unit }] ++ d :: [] ∧
      (∀ x ∈ [{ d with pos := 2, work := Work.unit }] ++ [], x.pos ≠ d.pos) ∧ d.work = .kept 9 0 7 ∧
      (let e : MsixEntry := ⟨1, 2, false, true⟩
       e.pending = true ∧ e.masked = false) := by decide +kernel

/-! ## Memory and the network -/

theorem witness_eccWriteback : ∀ n ∈ [bankAddr 1 8 / 8, 5],
    let s := { member with mem := { member.mem with damage := [(n, .single)], wb := [n] } }
    s.hx1 = true ∧ n ∈ s.mem.wb ∧ n + 1 ∉ s.mem.wb := by decide +kernel

theorem witness_scrub : ∀ d ∈ [Damage.single, .uncorrectable],
    let p := setReg (setFlag member Reg.drcStat 1) Reg.drcScrub 0x80000000
    let s := { p with mem := { p.mem with damage := [(3, d)] } }
    getFlag s Reg.drcScrub 31 = true ∧ getFlag s Reg.drcStat 1 = true ∧ (reg s Reg.drcScrubPos).toNat = 0 ∧
      s.mem.dirty = [] ∧ 7 < dramSize / 8 ∧ getFlag s Reg.drcUeaddrHi 31 = false := by decide +kernel

theorem witness_dramTraining : ∀ bit0 ∈ [true, false],
    let s := if bit0 = true then setFlag State.reset Reg.drcStat 0 else State.reset
    s.mode = .load ∧ getFlag s Reg.drcStat 0 = bit0 ∧ getFlag s Reg.drcStat 1 = false := by decide +kernel

theorem witness_route : ∀ w ∈ [0x81000002, 0x81000005],
    let s := setReg (setReg member Reg.nocRtsel 0x0000) Reg.nocRtdata (BitVec.ofNat 32 w)
    writerMay s .pilot Reg.nocRtCommit = true ∧ bits (reg s Reg.nocRtsel) 13 8 < 16 ∧
      niInitiates (bits (reg s Reg.nocRtsel) 13 8) = true ∧ niStop (bits (reg s Reg.nocRtsel) 5 0) = (0, 0) ∧
      portCode (reg s Reg.nocRtdata) 0 = w % 8 := by decide +kernel

/-- The stop of the Pilots' NI is their own spur's: one code leads there. -/
theorem witness_routeLeads : routeLeads 0 0 0x81000002 :=
  ⟨by decide, by decide, 0, by decide, 0, by decide, by decide, by decide, by decide⟩

theorem witness_networkRegisters : ∀ v ∈ [(0, 15), (0, 16)],
    writerMay member .pilot Reg.nocIsocmd = true ∧ bits (BitVec.ofNat 32 v.2) 5 0 = v.2 ∧
      writerMay member .pilot Reg.nocStclr = true := by decide +kernel

theorem witness_timeouts :
    let p := member
    let s := loading 0 (some (moving none false))
    p.hx1 = true ∧ niInitiates 8 = true ∧ niInitiates 3 = true ∧ p.ldr.run = none ∧ s.ldr.run.isSome = true ∧
      niInitiates 11 = true ∧ ringAt p 0x300 = none ∧ moveInFlight p 0x300 false = none ∧ linkInFlight p 0x300 = none ∧
      p.ttb.tload = none ∧ (storeGet NiStat.none p.mem.stats 8).hist.length = 8 ∧
      anyRuns (setRegion p 3 { Region.none with phase := .running }) = true ∧
      (let u := setPair p 9 { pairOfType 2 .active with sqBase := 0x4000 }
       ringAt u 0x4040 = some 9 ∧ (pairOf u 9).st = .active) := by decide +kernel

/-- A MOVE from DRAM and a LINK_SEND of a mailbox message from there, which meet no response. -/
theorem witness_queueTimeouts :
    let d : Dispatched := ⟨3, descriptor [(0, 2), (4, 16), (8, 1), (9, 2), (16, 0x300), (24, 0x500)], .move 0, false⟩
    let l : Dispatched := ⟨4, descriptor [(0, 8), (6, 1), (7, 1), (8, 48), (16, 0x300)], .link [5] 0, false⟩
    let s := setPair (paired true) 5 { pairOfType 0 .active with disp := [d] }
    let u := setPair (paired true) 5 { pairOfType 0 .active with disp := [l] }
    s.hx1 = true ∧ ringAt s 0x308 = none ∧ moveInFlight s 0x308 false = some (5, d) ∧ ringAt u 0x308 = none ∧
      moveInFlight u 0x308 false = none ∧ linkInFlight u 0x308 = some (5, l) ∧ (pairOf u 5).ctype ≠ 2 ∧
      Awaits u 5 4 l 0 := by decide +kernel

theorem witness_pilotTimeout : ∀ c ∈ [0x500],
    let w := word c 7 5 0 0
    let s := { pilots [(5, 0x1000000)] [w] with regs := (setReg (pilots [] []) (Reg.pltWin) 0x1).regs }
    let x := fetchChecked (nocFailure (nocCount s 0 0 true) 0 2 .timeout)
    niInitiates 0 = true ∧ mayExecute s = true ∧ x.2 = some w ∧ (nocAddresses x.1 w).length = 1 ∧ s.plt.pl ≠ 3 ∧
      x.1.plt.pl = s.plt.pl := by decide +kernel

/-- An instruction fetch through DRAM window 0 that meets no response. -/
theorem witness_fetchTimeout :
    let p := pilots [] []
    let s := { p with regs := (setReg p (Reg.pltWin) 0xA0000001).regs, plt := { p.plt with pc := 0x40000100, fq := [] } }
    niInitiates 0 = true ∧ mayExecute s = true ∧ s.plt.fq = [] ∧ fetchRefusal s 0x40000100 = none ∧
      pilotPlace 0x40000100 ≠ .bank0 ∧ s.plt.pl ≠ 3 := by decide +kernel

theorem witness_domains :
    let port (ph : PortPhase) : State := setPort { member with now := 1000000 } 2 { portAt member 2 with phase := ph, since := 0 }
    member.hx1 = true ∧ { member.fab with asleep := true }.asleep = true ∧ (portAt (port .sleep) 2).phase = .sleep ∧
      (portAt (port .disabled) 2).phase = .disabled ∧
      ferryActive (port .idle) = true ∧ (portAt (port .idle) 2).since + 1000000 ≤ (port .idle).now ∧
      anyRuns member = false ∧ member.fab.engine = none ∧ ∀ r < 8, (regionOf member r).going = false := by decide +kernel

/-- Region 3 in a phase, with its configuration frames, over the member's memory and routes. -/
def region (ph : RegionPhase) (qcfg : List (Nat × Word)) : State :=
  let s := setRegion (setFlag member Reg.drcStat 1) 3 { Region.none with phase := ph, frames := [(0, 5), (1, 6)] }
  { s with fab := { s.fab with qcfg := qcfg } }

theorem witness_userRequests :
    let s := region .running []
    anyRuns s = true ∧ s.mem.damage = [] ∧ nocKind 0x1FC0 64 = true ∧ (nocGate s 6 0x1FC0).2 = .ok ∧
      0x7FFFC0 + 64 ≤ bankSize := by decide +kernel

/-! ## The Ferry links -/

/-- The member's port 2 in a phase. -/
def ported (ph : PortPhase) (sent : List SentFlit) (uc : Nat) : State :=
  setPort { member with now := 9000000 } 2
    { PortState.idle with phase := ph, farNode := 9, lat := 1440, rxSeq := 7, txSeq := 30, credits := [1, 2, 3, 0], owed := [0, 1, 0, 2], sent := sent, ivUc := uc, ucOver := decide (uc = 17) }

theorem witness_ports : ∀ ph ∈ [PortPhase.idle, .sleep, .training, .failed, .up, .disabled, .miswired],
  ∀ uc ∈ [0, 16, 17],
    let s := ported ph [] uc
    ferryActive s = true ∧ (portAt s 2).phase = ph ∧ getFlag s (Reg.fryPctl + 0x40) 31 = true ∧
      bits (reg s (Reg.fryPctl + 0x40)) 1 0 = 0 ∧ (portAt s 2).since + 1000000 ≤ s.now ∧ (portAt s 2).ivUc = uc ∧
      (portAt s 2).ucOver = decide (uc = 17) ∧ (portAt s 2).ivAt + 1000000 ≤ s.now ∧
      ((portAt s 2).calAt + 100000000 ≤ s.now ↔ False) ∧ (portAt s 2).calAt + 100000000 ≤ 100000000 ∧
      writerMay s .pilot (Reg.fryPctl + 0x40) = true := by decide +kernel

/-- A flit with its CRC. -/
def flit (seq ack : Nat) (nak : Bool) : BitVec 2048 :=
  let f : BitVec 2048 := BitVec.ofNat 2048 (1 + seq * 256 + ack * 65536 + (if nak = true then 2 ^ 24 else 0) + 5 * 2 ^ 32)
  f + BitVec.ofNat 2048 ((crc32c (bytesOf f.toNat 252)).toNat * 2 ^ 2016)

set_option maxRecDepth 100000 in
theorem witness_flits : ∀ p ∈ [(8, false), (8, true)],
    let s := ported .up [⟨28, .rejoinAsk 5, 0, 6⟩, ⟨29, .rejoinAsk 6, 0, 7⟩] 0
    let f := flit p.1 28 p.2
    ferryActive s = true ∧ (portAt s 2).phase = .up ∧ crc32c (bytesOf f.toNat 252) = (f >>> 2016).truncate 32 ∧
      f.getLsbD 24 = p.2 ∧ (unacked ((f >>> 16).truncate 8) (portAt s 2).sent).length = 1 ∧
      (portAt s 2).waiting = [] ∧ (portAt s 2).owed.length = 4 ∧ (portAt s 2).sent.length < 64 ∧
      0 < (portAt s 2).credits.getD (LinkMsg.rejoinAsk 5).cls 0 ∧ (portAt s 2).credits.getD 3 0 = 0 ∧
      (∃ x ∈ unacked ((f >>> 16).truncate 8) (portAt s 2).sent, 7 ≤ x.replays) ∧
      (∀ x ∈ unacked 28 [⟨28, LinkMsg.rejoinAsk 5, 0, 7⟩, ⟨29, .rejoinAsk 6, 0, 6⟩], x.replays < 7) := by decide +kernel

/-- Messages of two classes wait; the higher one goes first while it has a credit. -/
theorem witness_nextFlit :
    let p := { portAt (ported .up [] 0) 2 with waiting := [.rejoinAsk 5, .tickReport 3 4] }
    nextFlit p = some (.tickReport 3 4) ∧ nextFlit { p with credits := [0, 2, 3, 0] } = some (.rejoinAsk 5) :=
      by decide +kernel

set_option maxRecDepth 100000 in
theorem witness_miswired :
    let s := ported .miswired [] 0
    let f := flit 8 28 false
    (portAt s 2).phase = .miswired ∧ (LinkMsg.tickReport 3 4).cls ≠ 2 ∧ f.toNat % 4 ≠ 2 := by decide +kernel

theorem witness_flitSequence : ∀ p ∈ [(8, 0), (135, 127), (136, 128), (7, 255)],
    ((BitVec.ofNat 8 p.1 : Byte) - (portAt (ported .up [] 0) 2).rxSeq - 1).toNat = p.2 := by decide +kernel

theorem witness_discovery : ∀ tree ∈ [0, 0x80000000, 0x40000000],
    let nodes : List NodeInfo := [⟨3, 1, true, 0, 1, 0, true, 5⟩, ⟨4, 2, false, 1, 2, 0, false, 0⟩,
      ⟨4, 2, false, 0, 3, 0, false, 0⟩]
    let s := { member with
      fry := { member.fry with treeNext := BitVec.ofNat 32 tree }
      que := { member.que with pairs := [(5, { pairOfType 2 .active with client := 7 })] } }
    ferryActive s = true ∧ heard s nodes = nodes ∧ bestPaths nodes = nodes.take 2 ∧
      (∀ k ∈ s.fry.known, ∀ m ∈ nodes, m.node ≠ k.node) ∧
      (∀ r ∈ nodes, r.root = true → ∀ m ∈ nodes, m.root = true → m ≠ r → r.node < m.node) ∧
      (pairOf s 5).client = (7 : BitVec 16).zeroExtend 20 := by decide +kernel

theorem witness_ferryRegisters :
    let s := setReg member Reg.fryTree 0x40000000
    let u := setReg (setReg s Reg.fryPctl 0) Reg.fryEpoch 0
    writerMay member .pilot Reg.fryNode = true ∧ portsUp member ≠ 0 ∧
      portsUp (region .running []) ≠ 0 ∧ portsUp { State.reset with mode := .run, plt := member.plt } = 0 ∧
      writerMay { State.reset with mode := .run, plt := member.plt } .pilot Reg.fryNode = true ∧
      writerMay s .pilot Reg.fryTreeCommit = true ∧ getFlag s Reg.fryPctl 31 = true ∧ getFlag u Reg.fryPctl 31 = false ∧
      writerMay s .pilot Reg.fryMbumpHi = true := by decide +kernel

theorem witness_tickMessages : ∀ src ∈ [0, 1],
    let p := sailing 0 [] .pending
    let s := { p with ttb := { p.ttb with src := BitVec.ofNat 32 src }, fry := { p.fry with tree := 0x80001388, node := 1 } }
    s.hx1 = true ∧ runs s = true ∧ isRoot s = true ∧ s.wdn.held = false ∧ s.ttb.ticked = true ∧ s.fry.tickSent = false ∧
      activePeriod s ≠ 0 ∧ s.ttb.lastTick + activePeriod s * 1000 ≤ s.now + bits s.fry.tree 15 0 := by decide +kernel

theorem witness_tickReceive : ∀ lat ∈ [16000 - 1440, 16001 - 1440],
    let p := ported .up [] 0
    let s := { p with fry := { p.fry with upPort := some 2 }, ttb := { p.ttb with src := 2 } }
    let m : TickMsg := ⟨5, 6, 2000, lat⟩
    ferryActive s = true ∧ runs s = true ∧ (portAt s 2).phase = .up ∧ s.fry.upPort = some 2 ∧ s.fry.deep = false ∧
      tickSrc s = 2 ∧ s.wdn.held = false ∧ (m.lat + (portAt s 2).lat.toNat ≤ 8 * m.delay.toNat ↔ lat = 16000 - 1440) ∧
      isRoot s = false ∧ s.fry.upPort.isSome = true := by decide +kernel

theorem witness_verdicts :
    let s := { member with now := 9000000, fry := { member.fry with collect := some (33, 8000000), awaiting := some 4 } }
    s.fry.collect = some (33, 8000000) ∧ s.hx1 = true ∧ s.wdn.held = false ∧ (7 : BitVec 16) ∉ s.fry.reports ∧
      (∃ k ∈ s.fry.known, k.node = 7) ∧ 8000000 + bits (reg s Reg.fryEpoch) 7 0 * 1000 ≤ s.now ∧
      (let u := { s with fry := { s.fry with verdict := some (6, []) }, helm := { s.helm with red := [{ globalOr (some 0) with sail := 6 }] } }
       u.fry.verdict = some (6, []) ∧ ∃ r ∈ u.helm.red, r.inst.isSome = true ∧ r.sail = 6) ∧
      s.fry.awaiting = some 4 ∧ 4 + (bits (reg s Reg.fryEpoch) 7 0 + 5) * 1000 ≤ s.now := by decide +kernel

theorem witness_halos : ∀ sail ∈ [13, 14, 12], ∀ seq ∈ [3, 4],
    let s := { member with
      ttb := { member.ttb with sail := 11 }, fry := { member.fry with sailofs := 2, waits := [(64 * 2 + 5, 4)] } }
    s.hx1 = true ∧ runs s = true ∧ s.wdn.held = false ∧ (portAt s (sideIndex .north)).phase = .up ∧
      storeGet 0 s.fry.waits (64 * (sideIndex .north).toNat + 5) = 4 ∧
      (sail = 13 → (BitVec.ofNat 48 sail : Sail) = s.ttb.sail + s.fry.sailofs) ∧
      (sail = 12 → 2 ^ 47 ≤ ((BitVec.ofNat 48 sail : Sail) - (s.ttb.sail + s.fry.sailofs)).toNat) ∧
      (4 ≤ seq ↔ seq ≠ 3) := by decide +kernel

theorem witness_contributions :
    let r : Reduction := globalOr (some 1)
    let s := { member with
      now := 90000000, fry := { member.fry with reds := 3, contrib := [⟨9, instSail member, 3, false, 6⟩] }
      helm := { member.helm with red := [census 3 none 5, r] } }
    s.hx1 = true ∧ runs s = true ∧ s.fry.reds ≤ 3 ∧ (∃ x ∈ s.fry.contrib, x.node = 9 ∧ x.k = 3) ∧
      s.wdn.held = false ∧ (∀ x ∈ s.fry.contrib, x.node ≠ 8) ∧ s.helm.red = [census 3 none 5] ++ r :: [] ∧
      (∀ x ∈ [census 3 none 5], x.slot.isSome ≠ r.slot.isSome ∧ x.inst = none) ∧
      r.since + bits (reg s Reg.fryTmo) 15 8 * 1000 ≤ s.now ∧ allContributed s r.sail 1 = false := by decide +kernel

/-- The member as node 5, with node 9 behind port 0 and node 7 behind port 2, and a packet that waits for its
acknowledgement. -/
def linked : State :=
  let s := setFlag member Reg.drcStat 1
  { s with
    now := 90000000
    fry := { s.fry with node := 5, known := [⟨9, 3, false, 0, 1, 1, false, 0⟩, ⟨7, 4, false, 2, 1, 1, false, 0⟩], links := [⟨3, 9, 3, 6, true, 0⟩] }
    que := { s.que with pairs := [(3, { pairOfType 2 .active with client := 9 })] } }

theorem witness_packets : ∀ dst ∈ [4, 7, 5],
    let d := BitVec.ofNat 16 dst
    ferryActive linked = true ∧ portsUp linked ≠ 0 ∧ linked.fry.dups = [] ∧ (d = linked.fry.node ↔ dst = 5) ∧
      (portToward linked d = none ↔ dst ≠ 7) ∧ (portToward linked 9).isSome = true ∧
      (∀ port ∈ [0, 1, 2, 3], (nocGate linked (portNi port) 0x1000).2 = .ok ∧ portNi port ∉ linked.fry.late) ∧
        storeGet 0 linked.fry.rxStatus 9 = 0 ∧
      linked.mem.damage = [] ∧ linked.que.mail.length < 32 := by decide +kernel

theorem witness_nodePair :
    let p := pairOf linked 3
    p.st = .active ∧ p.open_ = true ∧ p.ctype = 2 ∧ p.client.toNat = 9 ∧ bits (15 : Word) 15 0 < p.sqSize ∧
      bits (4 : Word) 15 0 < p.cqSize ∧ ringUsed p.cqHead 4 p.cqSize ≤ ringUsed p.cqHead p.cqTail p.cqSize ∧
      linked.fry.links = [⟨3, 9, 3, 6, true, 0⟩] ∧ 0 + bits (reg linked Reg.fryTmo) 31 16 * 1000 ≤ linked.now := by
  decide +kernel

theorem witness_linkSend : ∀ mode ∈ [0, 1, 9], ∀ len ∈ [0, 48],
    let r := descriptor [(0, 8), (4, 9), (6, mode), (8, len), (16, 0x100)]
    let s := setPair linked 5 { pairOfType 0 .active with fetched := [head r] }
    Dispatches s 5 8 (head r) ∧ runs s = true ∧ Space.of (rawField r 7 1) = some .host ∧ rawField r 6 1 = mode ∧
      rawField r 8 4 = len ∧ (linkRefusal s (pairOf s 5) mode len 9 0x100 (some .host) = 0 ↔ mode ≠ 9) ∧
      s.que.d3 = false := by decide +kernel

/-! ## The fabric -/

/-- The configuration of region r of n frames from Bank 3 or DRAM. -/
def configured (r n src : Nat) (b3 : Bool) : State :=
  setReg (setReg (region .ready []) Reg.fabCfgCtl (BitVec.ofNat 32 ((if b3 = true then 2 ^ 30 else 0) + r * 2 ^ 27 + n)))
    Reg.fabCfgSrcLo (BitVec.ofNat 32 src)

theorem witness_configCommit : ∀ p ∈ [(2, 3, 0x400, true), (2, 2, 0x7FF800, true), (2, 3, 0x7FF800, true),
  (2, 0, 0x400, false)],
    let s := configured p.1 p.2.1 p.2.2.1 p.2.2.2
    let ctl := reg s Reg.fabCfgCtl
    let space := if bits ctl 31 30 = 1 then 0x800000 else 0x2000000000
    writerMay s .pilot Reg.fabCfgCommit = true ∧ s.fab.engine = none ∧ bits ctl 29 27 = 2 ∧
      (regionOf s (bits ctl 29 27)).phase ≠ .running ∧ bits ctl 8 0 = p.2.1 ∧ (reg s Reg.fabCfgSrcLo).toNat ≤ space ∧
      ((reg s Reg.fabCfgSrcLo).toNat + 1024 * bits ctl 8 0 ≤ space ↔ p.2 ≠ (3, 0x7FF800, true)) := by decide +kernel

set_option maxRecDepth 100000 in
theorem witness_configFrame : ∀ p ∈ [(3, true)],
    let body : List Byte := [3, 1, 1, 0] ++ List.replicate 1016 0
    let bs := body ++ bytesOf (crc32c body).toNat 4
    let s := { region .ready [] with
      fab := { (region .ready []).fab with engine := some { bank3 := p.2, addr := 0x400, region := 3, left := 1 } }
      mem := (memWrite (region .ready []) false (if p.2 = true then bankAddr 3 0x400 else 0x400) bs).1.mem }
    (homeRead s 3 0x400 1024).2.1 = false ∧ (nocRead s 6 0x400 1024).2.1 = .ok ∧
      (if p.2 = true then (homeRead s 3 0x400 1024).2.2 else (nocRead s 6 0x400 1024).2.2) = bs ∧
      ((regionOf s 3).frames.map (·.1)).Pairwise (· < ·) := by decide +kernel

theorem witness_regionCommands : ∀ ph ∈ [RegionPhase.empty, .loading, .ready, .running],
  ∀ mode ∈ [Mode.run, .load, .standby],
    let s := { region ph [] with mode := mode }
    writerMay s .pilot Reg.fabRcmd = true ∧ (regionOf s 3).phase = ph ∧ s.fab.engine = none ∧
      (runs s = true ↔ mode = .run) := by decide +kernel

set_option maxRecDepth 100000 in
theorem witness_goCrc : ∀ q ∈ [[], [(50, (0x80000000 : Word))]],
    let x : Region := { Region.none with phase := .ready, frames := [], going := true, goAt := 7, newRam := [400] }
    let s := { setReg (setRegion (region .empty q) 3 x) (Reg.fabRexp + 12) (crc32c []) with now := 29007 }
    regionOf s 3 = x ∧ x.goAt + 29000 ≤ s.now ∧ crc32c (x.frames.flatMap fun f => bytesOf f.2.toNat 1016) = reg s (Reg.fabRexp + 12) ∧
      (∀ r < 8, bit (storeGet 0 s.fab.rclk r) 31 = false) ∧ getFlag s (Reg.fabIobank + 4) 0 = false ∧
      (sqBlocks s 3).length ≤ freePairs s ∧ sqBlocks s 3 = q.map (·.1) ∧ lowestFree s = some 1 := by decide +kernel

/-- A region that has run for 1 µs, or for less; its neighbour is not configured. -/
theorem witness_runningRegion : ∀ now_ ∈ [1003, 1004],
    let s := { setRegion (region .running []) 3 { Region.none with phase := .running, runAt := 4 } with now := now_ }
    (regionOf s 3).phase = .running ∧ ((regionOf s 3).runAt + 1000 ≤ s.now ↔ now_ = 1004) ∧ s.pending = [] ∧
      (regionOf s 2).phase ≠ .running := by decide +kernel

theorem witness_fabricClocks : ∀ p ∈ [(RegionPhase.running, 0x80000009), (.ready, 0x80000009), (.ready, 9)],
    let s := setReg (region p.1 []) (Reg.fabRclk + 12) (BitVec.ofNat 32 p.2)
    writerMay s .pilot Reg.fabRclkCommit = true ∧ (regionOf s 3).phase = p.1 ∧
      (bit (reg s (Reg.fabRclk + 12)) 31 = true ↔ p.2 ≠ 9) ∧ treeOf (storeGet 0 s.fab.rclk 3) 0 ≠ treeOf 9 0 ∧
      s.fab.switching = [] ∧ bit (storeGet 0 s.fab.rclk 3) 31 = false ∧
      (∀ r < 8, r ≠ 3 → (regionOf s r).phase = .empty) := by decide +kernel

theorem witness_fabricPorts : ∀ ph ∈ [CamPhase.lp, .hs, .ulps], ∀ lanes ∈ [0x94000002, 0x94000000],
    let p := region .running []
    let s := { setReg p (Reg.fabCam + 4) (BitVec.ofNat 32 lanes) with
      now := 1004
      fab := { p.fab with switching := [⟨3, 1, 9, none, 4⟩, ⟨3, 2, 9, none, 5⟩], rclk := [(3, 0x1000)], cams := (setCam p 1 { camAt p 1 with phase := ph }).fab.cams } }
    s.hx1 = true ∧ writerMay s .pilot Reg.fabCamCommit = true ∧ (camAt s 1).phase = ph ∧
      (∃ p ∈ s.fab.switching, p.region = 3 ∧ p.tree = 1 ∧ p.held = none ∧ p.since + 1000 ≤ s.now) ∧
      (∀ p ∈ s.fab.switching, ¬ (p.region = 3 ∧ p.tree = 2 ∧ p.held = none ∧ p.since + 1000 ≤ s.now)) ∧ s.pending = [] ∧
      writerMay s .pilot (Reg.fabIobank + 8) = true ∧ regionRuns s 4 = false ∧ regionRuns s 5 = false ∧
      regionRuns s 3 = true ∧ (∃ q, q < 8 ∧ (regionOf s q).phase = .running) ∧ bits (reg s (Reg.fabCam + 4)) 29 28 = 1 ∧
      (bits (reg s (Reg.fabCam + 4)) 1 0 = bits (reg s (Reg.fabCam + 4)) 3 2 ↔ lanes = 0x94000000) := by decide +kernel

/-- Block 48 of the running region 3, whose four trees run on FREF0, in a mode, with words, tied to pair 7 in SQ mode. -/
def blocked (mode : Nat) (words : List (BitVec 72 × Bool)) : State :=
  let r := region .running [(48, BitVec.ofNat 32 (mode * 2 ^ 29))]
  let s := { r with fab := { r.fab with rclk := [(3, 0x1020408)] } }
  setBlock { s with que := { s.que with pairs := [(7, { pairOfType 3 .active with client := 48, sqSize := 64, cqSize := 256, sqTail := 14 })] } }
    48 { QBlock.none with words := words, pair := if mode = 4 then some 7 else none, owners := [7] }

theorem witness_queues : ∀ mode ∈ [1, 2, 3, 4, 5], ∀ n ∈ [0, 1],
    let s := blocked mode (List.replicate n (5, true))
    let b := blockQ s 48
    let cfg := storeGet 0 s.fab.qcfg 48
    (regionOf s (48 / 16)).phase = .running ∧ bits cfg 31 29 = mode ∧ b.words.length = n ∧
      b.words.length < blockDepth cfg ∧
      b.skip = 0 ∧ b.partialDesc = [] ∧ (mode = 4 → b.pair = some 7 ∧
        ringUsed (pairOf s 7).sqHead (pairOf s 7).sqTail 64 < 63) ∧
      b.halfPop = false ∧ (pairOf s 7).ctype = 3 ∧ (pairOf s 7).cqSize ≠ 0 ∧
      writerMay s .pilot (Reg.fabQpop + 0x20 * 48) = true ∧ writerMay s .pilot (Reg.fabQpush + 0x20 * 48) = true := by
  decide +kernel

/-- Both sides of the block are clocked, whichever trees its configuration names, and neither with every tree off. -/
theorem witness_queueClocks : ∀ mode ∈ [1, 2, 3, 4, 5], ∀ side,
    let s := blocked mode []
    blockClocked s 48 side = true ∧ blockClocked { s with fab := { s.fab with rclk := [] } } 48 side = false := by
  intro mode hm side
  have h : ∀ mode ∈ [1, 2, 3, 4, 5], ∀ k : BitVec 2,
      let s := blocked mode []
      let u := { s with fab := { s.fab with rclk := [] } }
      treeRuns s (48 / 16) k.toNat = true ∧ treeRuns u (48 / 16) k.toNat = false ∧ regionFree u (48 / 16) = false := by
    decide +kernel
  exact ⟨by simp only [blockClocked, (h mode hm _).1, Bool.or_true],
    by simp only [blockClocked, (h mode hm _).2.1, (h mode hm 0).2.2, Bool.false_and, Bool.or_false]⟩

theorem witness_queueFull :
    let s := blocked 2 (List.replicate 1024 (5, true))
    1024 = (blockQ s 48).words.length ∧ blockDepth (storeGet 0 s.fab.qcfg 48) ≤ (blockQ s 48).words.length := by
  decide +kernel

theorem witness_queueCommit : ∀ cfg ∈ [2, 4, 4 * 2 + 1],
    let w := BitVec.ofNat 32 (if cfg = 9 then 4 * 2 ^ 29 + 2 ^ 15 else cfg * 2 ^ 29 + 49 * 2 ^ 16)
    let s := setReg (region .ready [(49, 0xA0000000)]) (Reg.fabQcfg + 0x20 * 48) w
    let u := reg s (Reg.fabQcfg + 0x20 * 48)
    writerMay s .pilot Reg.fabQcommit = true ∧ (regionOf s 3).phase ≠ .running ∧ (bits u 31 29 = 4 ↔ cfg ≠ 2) ∧
      (bit u 15 = true ↔ cfg = 9) ∧ (cfg ≠ 9 → bits u 22 16 = 49) ∧ bits (storeGet 0 s.fab.qcfg 49) 31 29 = 5 := by
  decide +kernel

/-! ## Faults and repair -/

/-- The member in sailing 500 with source n configured, and the history of its instance 56. -/
def faulty (n cfg : Nat) (recent : List Sail) : State :=
  let s := setFlag { member with ttb := { member.ttb with sail := 500, ckDone := true } } Reg.ldrCkptStat 31
  { s with flt := { s.flt with src := storePut 0 s.flt.src n (BitVec.ofNat 32 cfg), hist := [(512 * n + 56, ⟨recent, 1, false⟩)] } }

theorem witness_faultEvents : ∀ p ∈
    [(5, 0, []), (5, 0xC100000A, [490]), (5, 0xC100000A, [491]), (9, 0x90000000, []), (1, 0x88000000, []),
      (1, 0xA100000A, [])],
    let s := faulty p.1 p.2.1 p.2.2
    let cfg := storeGet 0 s.flt.src p.1
    let h := histOf s p.1 56
    s.hx1 = true ∧ (bit cfg 31 = true ↔ p.2.1 ≠ 0) ∧
      (bits cfg 10 0 = 0 ∨
        bits cfg 26 23 ≤ (((s.ttb.sail :: h.recent).take 15).filter fun x => decide ((s.ttb.sail - x).toNat < bits cfg 10 0)).length ↔
        p.2 ≠ (0xC100000A, [490]) ∧ p.2 ≠ (0xA100000A, [])) ∧
      (p.1 = 9 → bits cfg 28 27 = 2) ∧
      (p.2.1 = 0x88000000 → bits cfg 28 27 = 1) ∧ (p.2.1 = 0xA100000A → bit cfg 29 = true) ∧ s.ttb.ckDone = true ∧
      getFlag s Reg.ldrCkptStat 31 = true ∧ s.ttb.sentFor ≠ some s.ttb.passSail ∧ runs s = true ∧ s.wdn.held = false ∧
      rowLost s 3 = false ∧ rowByp s 3 = 0x1F ∧ s.flt.repair = none ∧ s.flt.log.length < 64 ∧
      writerMay s .pilot Reg.fltLogPop = true := by decide +kernel

/-- A running repair that has ordered the event's tile already. -/
theorem witness_repeatedOrder :
    let p : Repair := ⟨.substituting, .full, [{ tile := some (3, 5), ev := ⟨1, 56, 7⟩ }], 0, [], 5, 0⟩
    let f := faulty 1 0x88000000 []
    let s := { f with flt := { f.flt with repair := some p } }
    s.hx1 = true ∧ bit (storeGet 0 s.flt.src 1) 31 = true ∧ s.flt.repair = some p ∧ p.step ≠ .restoring ∧
      ∃ o ∈ p.orders, o.tile = some (56 / 17, 56 % 17) := by decide +kernel

theorem witness_selfTest : ∀ n ∈ [0, 31],
    let p := setFlag { member with ttb := { member.ttb with sentFor := some member.ttb.sail } } Reg.fltCtl 0
    let s := { p with flt := { p.flt with bistStep := n } }
    s.hx1 = true ∧ runs s = true ∧ getFlag s Reg.fltCtl 0 = true ∧ s.ttb.ticked = true ∧
      s.ttb.sentFor = some s.ttb.sail ∧ s.flt.bistEnd ≤ s.now ∧
      s.helm.run = none ∧ s.helm.preempted = none ∧ s.helm.nq = [] ∧ s.helm.uq = [] ∧ s.helm.held = false ∧
      s.flt.repair = none ∧ s.flt.bistStep = n := by decide +kernel

theorem witness_substitution : ∀ c ∈ [RepairCase.full, .inLoad, .noCkpt, .rollback], ∀ bad ∈ [[], [3]],
    let p : Repair := ⟨.substituting, c, [{ tile := some (3, 5), ev := ⟨1, 56, 7⟩ }], 0, [], 5, 0⟩
    let s := { member with now := 5, flt := { member.flt with repair := some p, spareBad := bad } }
    s.flt.repair = some p ∧ p.step = .substituting ∧ p.later = [] ∧ rowLost s 3 = false ∧ rowByp s 3 = 0x1F ∧
      s.flt.log.length < 60 ∧ s.wdn.held = false ∧ s.ttb.ckWait = false ∧ p.clearEnd ≤ s.now ∧ s.flt.bistEnd ≤ s.now ∧
        (3 ∉ s.flt.spareBad ↔ bad = []) := by decide +kernel

theorem witness_faultTables : ∀ n ∈ [0, 9, 3],
    let p := if n = 0 then member else setReg member (Reg.fltSrc + 4 * n) (if n = 9 then 0x08000000 else 0x20000000)
    let s := { p with flt := { p.flt with recordDue := true } }
    let v := reg s (Reg.fltSrc + 4 * n)
    s.hx1 = true ∧ s.flt.recordDue = true ∧ s.wdn.held = false ∧ writerMay s .pilot Reg.fltSrcCommit = true ∧
      writerMay s .pilot Reg.fltSwdCommit = true ∧ (bits v 28 27 = 1 ∧ 2 < n ↔ n = 9) ∧
        (bit v 29 = true ∧ n ≠ 1 ↔ n = 3) ∧
      (n = 0 → ∀ m < 20, let u := reg s (Reg.fltSrc + 4 * m)
        (bits u 28 27 = 1 → m ≤ 2) ∧ (bits u 28 27 = 2 → m = 9) ∧ (bit u 29 = true → m = 1)) := by decide +kernel

theorem witness_wardenVerdicts :
    let s := { member with now := 9, wdn := { member.wdn with clkMiss := 2, swdAt := some 0, clkNext := some 9 } }
    let u := { s with wdn := { s.wdn with clkNext := some 10 } }
    s.hx1 = true ∧ s.flt.log.length < 64 ∧ s.wdn.clkMiss = 2 ∧ member.wdn.clkMiss ≠ 2 ∧ s.wdn.clkNext = some 9 ∧
      9 ≤ s.now ∧
      u.wdn.clkNext = some 10 ∧ u.now < 10 ∧ member.wdn.clkNext = none ∧ s.wdn.swdAt = some 0 ∧ 0 ≤ s.now ∧
        s.wdn.expired = false ∧
      s.mode = .run := by decide +kernel

/-! ## Supply, modes, boot and SMBus -/

/-- The module in a mode at 12 V, with wakes allowed and IGN_WAKE blocked by nothing. -/
def powered (m : Mode) (wakecfg : Nat) : State :=
  let s := setReg { member with mode := m } Reg.pwrWakecfg (BitVec.ofNat 32 wakecfg)
  { s with
    now := 60000000000, hx1 := decide (m ≠ .off) && decide (m ≠ .standby)
    wdn := { s.wdn with vin := 12000, pinVin := 12000, ign := true, rewake := true, ignBlocked := false, thermal := none, waking := none } }

theorem witness_supply : ∀ m ∈ [Mode.load, .run, .degraded, .bench],
    let p := powered m 0x50307
    let s := { p with wdn := { p.wdn with holdup := some 0, sagging := some 0 } }
    (s.mode = .load ∨ runs s = true) ∧ s.wdn.holdup = some 0 ∧ 0 + 200000 ≤ s.now ∧ s.mode ≠ .off ∧
      0 + 50000000 ≤ s.now ∧ p.wdn.sagging = none ∧ p.wdn.tagBusy = none ∧ p.wdn.tagNextB = false ∧ s.hx1 = true ∧
        2000 ≤ (2000 : BitVec 16).toInt := by decide +kernel

theorem witness_wakes : ∀ cfg ∈ [0, 7],
    let s := powered .standby cfg
    s.mode = .standby ∧ s.wdn.waking = none ∧ 6200 ≤ s.wdn.pinVin.toNat ∧ s.wdn.pinVin.toNat ≤ 58000 ∧
      s.wdn.thermal = none ∧
      s.wdn.ignDue ≤ s.now ∧
      (∀ k < 3, getFlag s Reg.pwrWakecfg k = true ↔ cfg = 7) ∧ s.wdn.ignBlocked = false ∧ s.wdn.rewake = true ∧
      s.wdn.ign = true ∧ (powered .off cfg).mode = .off ∧ s.wdn.dueAt ≤ s.now ∧
      (let u := { s with wdn := { s.wdn with dueAt := s.now + 1 } }
       u.now < u.wdn.dueAt) := by decide +kernel

theorem witness_wakeEvents :
    let p := powered .standby 7
    let s := { p with wdn := { p.wdn with thermal := some 5, waking := some 2 }, que := { p.que with perst := true } }
    s.wdn.wardenHot = false ∧ s.wdn.ignDue ≤ s.now ∧ s.wdn.thermal = some 5 ∧ s.mode = .standby ∧ 5 ≤ s.now ∧
      s.wdn.waking = some 2 ∧ s.wdn.dueAt ≤ s.now ∧
      s.que.perst = true := by decide +kernel

theorem witness_ignition : ∀ off ∈ [0, 3], ∀ m ∈ [Mode.load, .run], ∀ held ∈ [true, false],
    let p := powered m (off * 256 + 7)
    let s := { p with wdn := { p.wdn with held := held, noHealth := held, ignOff := some 4 } }
    (s.mode = .load ∨ runs s = true) ∧ bits (reg s Reg.pwrWakecfg) 15 8 = off ∧ getFlag s Reg.pwrWakecfg 0 = true ∧
      s.wdn.held = held ∧ s.wdn.noHealth = held ∧ (runs s = true ↔ m = .run) ∧ s.wdn.ignOff = some 4 ∧ 4 ≤ s.now ∧
      getFlag (powered m 0) Reg.pwrWakecfg 0 = false := by
  decide +kernel

theorem witness_modeCommands : ∀ m ∈ [Mode.load, .run],
    let s := powered m 7
    writerMay s .host Reg.pwrCmd = true ∧ writerMay s .pilot Reg.pwrCmd = true ∧ s.wdn.held = false ∧
      (runs s = false ∨ s.wdn.held = true ∨ s.wdn.noHealth = true ↔ m = .load) ∧ getFlag s Reg.pwrWakecfg 1 = true ∧
      getFlag (powered m 0) Reg.pwrWakecfg 1 = false ∧ writerMay s .pilot Reg.pwrAclkCommit = true := by decide +kernel

theorem witness_runreq : ∀ verified ∈ [true, false],
    let p := powered .load 7
    let s := { setFlag p Reg.drcStat 1 with
      wdn := { p.wdn with verified := verified }, ttb := { p.ttb with slots := [(0, some (timetable 0 []))] } }
    s.mode = .load ∧ getFlag s Reg.drcStat 1 = true ∧ s.wdn.verified = verified ∧ slotOf s s.wdn.slot0.toNat ≠ none ∧
      writerMay s .pilot Reg.pwrCmd = true := by decide +kernel

/-- A boot in progress. -/
def booting (others : List (BitVec 1)) : State :=
  let s := setFlag (powered .load 7) Reg.drcStat 1
  { s with wdn := { s.wdn with
      rails := true, resetting := true, dueAt := 7, booting := true, verified := false, selfTested := true, others :=
        others, limits := 0
      bootlim := some 0 } }

theorem witness_boot : ∀ others ∈ [[], [1]],
    let s := booting others
    s.mode = .load ∧ s.wdn.rails = true ∧ s.wdn.resetting = true ∧ s.wdn.dueAt ≤ s.now ∧ s.hx1 = true ∧
      s.wdn.booting = true ∧
      s.wdn.verified = false ∧ s.wdn.selfTested = true ∧ getFlag s Reg.drcStat 1 = true ∧ s.wdn.others = others ∧
      s.wdn.bootlim = some 0 ∧ 0 ≤ s.now ∧ s.wdn.limits = 0 := by decide +kernel

theorem witness_tags : ∀ busy ∈ [none, some []],
    let p := powered .load 7
    let x : TagWrite := ⟨7, true, 480, [1, 2]⟩
    let s := { p with wdn := { p.wdn with tagDirty := true, tagPtr := 15, tagBusy := busy, tagSmb := some { x with came := p.now } } }
    let u := { s with wdn := { s.wdn with tagWaits := [x] } }
    writerMay s .host (Reg.wdnTag + 4 * 127) = true ∧ s.mode ≠ .off ∧ s.wdn.tagDirty = true ∧ s.wdn.tagPtr = 15 ∧
      (s.wdn.tagBusy = none ↔ busy = none) ∧ s.wdn.tagWaits = [] ∧ u.wdn.tagWaits = [x] ∧ x.smb = true ∧
      (∃ y, s.wdn.tagSmb = some y ∧ y.came = s.now ∧ y.first ≤ 480 ∧ 480 < y.first + y.bytes.length) := by
  intro busy hb
  simp only [List.mem_cons, List.not_mem_nil, or_false] at hb
  rcases hb with rfl | rfl <;>
    exact ⟨by decide +kernel, by decide +kernel, rfl, rfl, by decide +kernel, rfl, rfl, rfl, _, rfl, rfl, by decide,
      by decide⟩

/-- SMBus writes without PEC, with the right PEC and with a wrong one. -/
theorem witness_pec : ∀ k ∈ [0, 1, 2],
    let s := powered .standby 7
    let want := pec (smbHead s 0x22 ++ BitVec.ofNat 8 32 :: List.replicate 32 3)
    let b : WithPec (List Byte) :=
      ⟨List.replicate 32 3, if k = 0 then none else if k = 1 then some want else some (want + 1)⟩
    s.mode ≠ .off ∧ b.val.length = 32 ∧
      ((∀ p ∈ b.pec, p = pec (smbHead s 0x22 ++ BitVec.ofNat 8 b.val.length :: b.val)) ↔ k ≠ 2) := by decide +kernel

theorem witness_flash : ∀ page ∈ [0x0F, 0x10, 0x1F, 0x20, 0x2F, 0x30, 0xBFF, 0xC00],
    let s := setReg (powered .load 7) Reg.wdnFlAddr (BitVec.ofNat 32 (4096 * page))
    let u := { s with wdn := { s.wdn with flashOp := some (.program page), verified := true } }
    writerMay s .pilot Reg.wdnFlCmd = true ∧ bits (reg s Reg.wdnFlAddr) 26 12 = page ∧ s.wdn.flashOp = none ∧
      s.wdn.tagBusy = none ∧ u.wdn.flashOp = some (.program page) ∧ page ∉ u.wdn.programmed := by decide +kernel

theorem witness_smbus : ∀ m ∈ [Mode.standby, .load, .run, .degraded, .bench], ∀ alert ∈ [0, 4],
    let s := { powered m 7 with wdn := { (powered m 7).wdn with alert := BitVec.ofNat 8 alert, alertMask := 0xFF } }
    s.mode ≠ .off ∧ (s.hx1 = true ↔ m ≠ .standby) ∧ (s.wdn.alert &&& s.wdn.alertMask ≠ 0 ↔ alert = 4) := by decide +kernel

/-- The boot with bytes of image A's header written: NSEC, then what else the list gives. -/
def imaged (nsec : Nat) (l : List (Nat × List Byte)) : State :=
  let s := booting []
  { s with wdn := { s.wdn with
      flash := l.foldl (fun f p => flashPut f (0x1000000 + p.1) p.2) (flashPut s.wdn.flash 0x1000006 (bytesOf nsec 2)) } }

theorem witness_badSection :
    let s := imaged 1 [(0x40, [1, 0]), (0x44, bytesOf 0x1000 4 ++ bytesOf 0 4), (0x50, bytesOf 0 8)]
    (∃ x ∈ sectionsOf s s.wdn.image, sha256 (flashBytes s (imageBase s.wdn.image + x.off) x.len) ≠ x.hash) ∧
      ∀ x ∈ sectionsOf s s.wdn.image, x.type ≠ 5 ∧ x.type ≠ 6 := by decide +kernel

/-- An image of no sections that promises the CRC c. -/
theorem witness_goodImage (c : Word) : let s := imaged 0 [(0x10, bytesOf c.toNat 4)]
    sectionsOf s s.wdn.image = [] ∧ BitVec.ofNat 32 (flashNum s (imageBase s.wdn.image + 0x10) 4) = c := by
  have h : imageBase (booting []).wdn.image = 0x1000000 := by decide
  have hc := c.isLt
  constructor
  · have n : sectionCount (imaged 0 [(0x10, bytesOf c.toNat 4)]) (booting []).wdn.image = 0 := by
      simp [sectionCount, h, imaged, flashNum, flashBytes, flashByte, rangeFrom, bytesOf, flashPut, numOf,
        storeGet_storePut]
    show (List.range (sectionCount _ (booting []).wdn.image)).map _ = []
    rw [n]; rfl
  · show BitVec.ofNat 32 (flashNum _ (imageBase (booting []).wdn.image + 0x10) 4) = c
    rw [h]
    apply BitVec.eq_of_toNat_eq
    simp [imaged, flashNum, flashBytes, flashByte, rangeFrom, bytesOf, flashPut, numOf, storeGet_storePut]
    omega

/-- The module in LOAD or RUN whose store's CRC is the one awaited, and one whose store's is not. -/
theorem witness_patchCommit (right : Bool) :
    let c := storeCrc member.helm.store
    let s := setReg (setReg member Reg.hlmPatch 3) Reg.hlmPatchCrc (if right = true then c else c + 1)
    writerMay s .pilot Reg.hlmPatchCommit = true ∧ bit (reg s Reg.hlmPatch) 1 = true ∧
      (storeCrc s.helm.store = reg s Reg.hlmPatchCrc ↔ right = true) := by
  intro c s
  have hw : writerMay s .pilot Reg.hlmPatchCommit = true := by
    rw [writerMay_setReg _ _ _ _ _ (by decide), writerMay_setReg _ _ _ _ _ (by decide)]
    decide +kernel
  refine ⟨hw, ?_, ?_⟩
  · have : reg s Reg.hlmPatch = 3 := by simp [s, Reg.hlmPatch, Reg.hlmPatchCrc]
    rw [this]; decide
  · have : reg s Reg.hlmPatchCrc = if right = true then c else c + 1 := by simp [s]
    rw [this]
    show c = _ ↔ _
    cases right <;> simp

/-! ## Debug -/

/-- The module with a session of a level on BAR0. -/
def debugged (l : BitVec 2) (halted : Bool) : State :=
  { member with dbg := { member.dbg with session := some (l, .bar0), cause := 1 }, plt := { member.plt with halted := halted } }

theorem witness_challenges : ∀ lock ∈ [none, some 5], ∀ fails ∈ [0, 1, 2], ∀ path ∈ [DbgPath.jtag, .bar0], ∀ l ∈ [0, 2],
    let p := debugged 1 false
    let d : DbgState := { p.dbg with
      chal := some (9, path, 10), lockEnd := lock, fails := fails, session := if l = 0 then none else some (2, .bar0) }
    let s : State := { p with dbg := d }
    s.hx1 = true ∧ s.dbg.lockEnd = lock ∧ s.dbg.chal = some (9, path, 10) ∧ s.now < 10 ∧ s.dbg.fails = fails ∧
      ((s.dbg.session.any fun x => decide (x.2 ≠ path)) = true ↔ l = 2 ∧ path = .jtag) := by decide +kernel

/-- The 32 bytes written to DBG_RESP0 to DBG_RESP7. -/
def responding (s : State) (l : List Byte) : State :=
  (List.range 8).foldl (fun s n => setReg s (Reg.dbgResp + 4 * n) (BitVec.ofNat 32 (numOf ((l.drop (4 * n)).take 4)))) s

theorem responding_bytes (s : State) (l : List Byte) (h : l.length = 32) : responseBytes (responding s l) = l := by
  have piece (n : Nat) (hn : 4 * n + 4 ≤ 32) :
      bytesOf (BitVec.ofNat 32 (numOf ((l.drop (4 * n)).take 4))).toNat 4 = (l.drop (4 * n)).take 4 := by
    have hl : ((l.drop (4 * n)).take 4).length = 4 := by simp; omega
    have := numOf_lt ((l.drop (4 * n)).take 4)
    rw [hl] at this
    rw [BitVec.toNat_ofNat, Nat.mod_eq_of_lt (by simpa using this)]
    simpa only [hl] using bytesOf_numOf ((l.drop (4 * n)).take 4)
  have cut (n m : Nat) (hm : n + 4 = m) : (l.drop n).take 4 ++ l.drop m = l.drop n := by
    rw [← hm, ← List.drop_drop, List.take_append_drop]
  have hd : l.drop 32 = [] := List.drop_eq_nil_of_le (by omega)
  have hr (n : Nat) (hn : n < 8) : reg (responding s l) (Reg.dbgResp + 4 * n) = BitVec.ofNat 32 (numOf ((l.drop (4 * n)).take 4)) := by
    simp only [responding, show List.range 8 = [0, 1, 2, 3, 4, 5, 6, 7] from rfl, List.foldl_cons, List.foldl_nil,
      reg_setReg]
    have : n = 0 ∨ n = 1 ∨ n = 2 ∨ n = 3 ∨ n = 4 ∨ n = 5 ∨ n = 6 ∨ n = 7 := by omega
    rcases this with h | h | h | h | h | h | h | h <;> subst h <;> simp
  have hp : responseBytes (responding s l) = (List.range 8).flatMap fun n => (l.drop (4 * n)).take 4 := by
    rw [responseBytes, List.flatMap_def, List.flatMap_def]
    congr 1
    refine List.map_congr_left fun n hn => ?_
    rw [List.mem_range] at hn
    rw [hr n hn, piece n (by omega)]
  rw [hp]
  simp only [show List.range 8 = [0, 1, 2, 3, 4, 5, 6, 7] from rfl, List.flatMap_cons, List.flatMap_nil, Nat.reduceMul]
  rw [← hd, cut 28 32 rfl, cut 24 28 rfl, cut 20 24 rfl, cut 16 20 rfl, cut 12 16 rfl, cut 8 12 rfl, cut 4 8 rfl,
    cut 0 4 rfl]
  rfl

theorem witness_rightResponse (path : DbgPath) (level : BitVec 2) (c : BitVec 128) :
    let p := debugged 1 false
    let want := hmacSha256 (bytesOf Config.debugKey 32) (bytesOf c.toNat 16 ++
      [level.zeroExtend 8, if path = .jtag then 0 else 1])
    let s := responding { p with dbg := { p.dbg with chal := some (c, path, 10), session := none } } want
    s.hx1 = true ∧ s.dbg.lockEnd = none ∧ s.dbg.session = none ∧ s.dbg.chal = some (c, path, 10) ∧ s.now < 10 ∧
      responseBytes s = want := by
  intro p want s
  exact ⟨rfl, rfl, rfl, rfl, (by decide : (0 : Nat) < 10), responding_bytes _ _ (hmacSha256_length _ _)⟩

theorem witness_wrongResponse (path : DbgPath) (level : BitVec 2) (c : BitVec 128) :
    ∃ s : State, s.hx1 = true ∧ s.dbg.lockEnd = none ∧ s.dbg.chal = some (c, path, 10) ∧ s.now < 10 ∧
      responseBytes s ≠ hmacSha256 (bytesOf Config.debugKey 32)
        (bytesOf c.toNat 16 ++ [level.zeroExtend 8, if path = .jtag then 0 else 1]) := by
  let p := debugged 1 false
  let s : State := { p with dbg := { p.dbg with chal := some (c, path, 10) } }
  generalize hw : hmacSha256 _ _ = want
  have hl : want.length = 32 := hw ▸ hmacSha256_length _ _
  by_cases h : want = List.replicate 32 0
  · refine ⟨responding s (List.replicate 32 1), rfl, rfl, rfl, (by decide : (0 : Nat) < 10), ?_⟩
    rw [responding_bytes _ _ rfl, h]; decide
  · refine ⟨responding s (List.replicate 32 0), rfl, rfl, rfl, (by decide : (0 : Nat) < 10), ?_⟩
    rw [responding_bytes _ _ rfl]; exact fun e => h e.symm

theorem witness_sessions :
    (debugged 1 false).dbg.session = some (1, .bar0) ∧ member.dbg.session = none ∧
      (let s := { member with dbg := { member.dbg with chal := some (1, .jtag, 0), lockEnd := some 0 } }
       s.dbg.chal = some (1, .jtag, 0) ∧ s.dbg.lockEnd = some 0 ∧ 0 ≤ s.now) ∧
      (1 : BitVec 2) ≠ 0 ∧ (1 : BitVec 2) ≠ 3 ∧ (∀ c ∈ [(0 : BitVec 5), 1, 2, 8], (⟨3, true⟩ : BypassScan).code ≠ c) ∧
      (let dr : BitVec 48 := BitVec.ofNat 48 (2 ^ 47 + (Reg.dbgMaddrLo - 0x508000) / 4 * 2 ^ 32 + 77)
       0x508000 + 4 * (dr.toNat / 2 ^ 32 % 2 ^ 13) = Reg.dbgMaddrLo ∧ Reg.dbgAuthStat < Reg.dbgMaddrLo ∧
         dr.getLsbD 47 = true) := by decide +kernel

/-- A level-2 session over halted Pilots with an instruction in the queue. -/
def steppable (w : Word) : State :=
  let s := debugged 2 true
  setGprs { s with plt := { s.plt with fq := [w] } } [(5, 0x80000000), (6, 3)]

theorem witness_stepping : ∀ e ∈ aluRows,
    let w := word e.code 7 5 6 0
    let s := steppable w
    s.hx1 = true ∧ s.dbg.session = some (2, .bar0) ∧ s.wdn.held = false ∧ s.plt.frozen = false ∧ s.plt.halted = true ∧
      s.plt.idle = false ∧ s.plt.flights = [] ∧ firstLine (resumePilots s) = none ∧
      Executes (resumePilots s) (afterFetch (resumePilots s)) w e.code := by decide +kernel

theorem witness_runControl : ∀ frozen ∈ [true, false], ∀ halted ∈ [true, false], ∀ onBrk ∈ [true, false],
    let p := debugged 2 halted
    let s := { p with plt := { p.plt with frozen := frozen }, dbg := { p.dbg with onBrk := onBrk } }
    let u := { s with plt := { s.plt with alarms := [3] } }
    s.hx1 = true ∧ s.dbg.session = some (2, .bar0) ∧ s.wdn.held = false ∧ s.plt.frozen = frozen ∧ s.plt.halted = halted ∧
      s.dbg.onBrk = onBrk ∧ takeDue s true = none ∧ (takeDue u true).isSome = true ∧
        (frozen = false → pilotsLive u = true) := by
  decide +kernel

theorem witness_debugRegisters : ∀ n ∈ [0, 31, 64, 127],
    let s := setReg (debugged 2 true) Reg.dbgRegsel (BitVec.ofNat 32 n)
    bits (reg s Reg.dbgRegsel) 6 0 = n ∧ s.plt.halted = true ∧ (debugged 2 false).plt.halted = false := by decide +kernel

theorem witness_debugMemory : ∀ mctl ∈ [0, 2, 0x10],
    let a := bankAddr 1 0x100
    let s := setReg (setReg (setReg (debugged 2 false) Reg.dbgMctl (BitVec.ofNat 32 mctl)) Reg.dbgMaddrLo (BitVec.ofNat 32 a))
      Reg.dbgMaddrHi (BitVec.ofNat 32 (a / 2 ^ 32))
    (getFlag s Reg.dbgMctl 4 = true ↔ mctl = 0x10) ∧ s.plt.halted = false ∧
      (reg s Reg.dbgMaddrLo).toNat + bits (reg s Reg.dbgMaddrHi) 7 0 * 2 ^ 32 = a ∧ place a = .bank 1 0x100 ∧
      bits (BitVec.ofNat 32 mctl) 1 0 ≠ 3 := by decide +kernel

/-- A level-2 session beside a Helm. -/
def helmed (halted : Bool) (run preempted : Option KernelCtx) : State :=
  let s := debugged 2 false
  { s with helm := { s.helm with dbgHalt := halted, run := run, preempted := preempted } }

theorem witness_helmControl :
    (∀ run ∈ [none, some context], (helmed false run none).helm.dbgHalt = false ∧ (helmed false run none).helm.run = run ∧
      helmHalted (helmed false run none) = false) ∧
    (∀ pre ∈ [none, some context], helmHalted (helmed true none pre) = true ∧
      (helmed true none pre).helm.preempted = pre) ∧
    (∀ held ∈ [true, false],
      let h := helmed true none none
      let s := { h with helm := { h.helm with held := held } }
      s.dbg.session = some (2, .bar0) ∧ s.helm.held = held ∧ s.helm.dbgHalt = true) ∧
    (let p := issuing (fieldsOf 1 [])
     let s := { p with
       helm := { p.helm with dbgHalt := true }
       dbg := { p.dbg with session := some (2, .bar0) } }
     let u := { s with helm := { s.helm with dbgStep := true, landing := false }, dbg := { s.dbg with hlmCode := 0 } }
     let m := Micro.of (mword (fieldsOf 1 []))
     helmHalted s = true ∧ m.spec = 0 ∧ Issues u context m) := by decide +kernel

theorem witness_gangway : ∀ full ∈ [true, false],
    let p := debugged 1 false
    let s := { p with dbg := { p.dbg with gwRxFull := full, gwTxFull := full } }
    let x : GwLost := ⟨s.now, 5, false⟩
    let u := { s with dbg := { s.dbg with gwRxLost := some x, gwTxLost := some x } }
    s.dbg.gwRxLost = none ∧ s.dbg.gwTxLost = none ∧ u.dbg.gwRxLost = some x ∧ u.dbg.gwTxLost = some x ∧ x.came = u.now ∧
      s.dbg.gwRxFull = full ∧ s.dbg.gwTxFull = full ∧ pilotsRun s = true ∧ 1 ≤ s.plt.pl.toNat ∧
      reachesUnit s .pilot Reg.gwRx = true ∧ reachesUnit s .pilot Reg.gwTx = true ∧ s.wdn.held = false := by
  decide +kernel

/-! ## The machine as a whole -/

theorem witness_pending :
    (State.reset.pending = []) ∧ ({ State.reset with pending := [.idcode, .tapReset] } : State).pending = [.idcode,
      .tapReset] := by
  decide

theorem witness_invariant : Invariant State.reset ∧ ∃ t, step State.reset = .next t ∧ Invariant t := by
  refine ⟨by decide +kernel, _, rfl, by decide +kernel⟩

/-! ## Numbers of the manual

The expected values stand in the manual's worked examples, named beside each test. -/

/-- The state after a command. -/
def after (c : Instr) (s : State) : State :=
  match exec c s with
  | .next t => t
  | _ => s

/-- 10, after R315: five encodings. -/
theorem test_pilotWords :
    (∀ w ∈ [0x04000000, 0x20A3FFFC, 0x50FD0010, 0x68FD0010, 0x80800003], validWord (BitVec.ofNat 32 w) = true) ∧
      opCode 0x04000000 = 0x040 ∧ opCode 0x20A3FFFC = 0x200 ∧ rd 0x20A3FFFC = 5 ∧ ra 0x20A3FFFC = 3 ∧
      immS 0x20A3FFFC = -4 ∧ opCode 0x50FD0010 = 0x500 ∧ rd 0x50FD0010 = 7 ∧ ra 0x50FD0010 = 29 ∧
      opCode 0x68FD0010 = 0x680 ∧ rd 0x68FD0010 = 7 ∧ opCode 0x80800003 = 0x800 ∧ rd 0x80800003 = 4 := by decide +kernel

/-- 10, Integer operations: ADDCZ g2, g4, g6. -/
theorem test_addcz :
    let w := word 0x054 2 4 6 0
    let t := after (.addcz w) (pilots [(4, 0xFFFFFFF0), (6, 0x20)] [w])
    gprAt t 2 = 0x10 ∧ t.plt.cy = true := by decide +kernel

/-- 11, after R362: SW g3, 0(g2) at level 1 into the return-stack region. -/
theorem test_splitStore :
    let w := word 0x680 3 2 0 0
    let p := pilots [(2, 0x7BFFFE), (3, 0x11223344)] [w]
    let t := after (.sw w 0) { p with plt := { p.plt with pl := 1 } }
    t.plt.pl = 2 ∧ t.plt.save2.val = 0x7BFFFE ∧ bits t.plt.save2.cause 7 0 = Cause.prot ∧
      bit t.plt.save2.cause 30 = true ∧
      memByte t (bankAddr 0 0x7BFFFE) = 0 ∧ memByte t (bankAddr 0 0x7C0000) = 0 := by decide +kernel

/-- 10, BCRC: the standard CRC-32C of the digits 1 to 9. -/
theorem test_crc32c : crc32c [0x31, 0x32, 0x33, 0x34, 0x35, 0x36, 0x37, 0x38, 0x39] = 0xE3069283 := by decide +kernel

/-- FIPS 180-4: the digest of the bytes of abc begins BA7816BF and ends F20015AD. -/
theorem test_sha256 :
    (sha256 [0x61, 0x62, 0x63]).take 4 = [0xBA, 0x78, 0x16, 0xBF] ∧
      (sha256 [0x61, 0x62, 0x63]).drop 28 = [0xF2, 0x00, 0x15, 0xAD] := by decide +kernel

/-- 12, after R412: the default route from the queue engine to Bank 1. -/
theorem test_defaultRoute : shortestRoute 11 2 = 0x85003000 := by decide

/-- 02, before R57: tile (5, 9) mapped out. -/
theorem test_bypass : logicalCol 9 10 = some 9 ∧ logicalCol 9 16 = some 15 ∧ logicalCol 9 9 = none := by decide

/-- 02, R29: TT 0x96, 0xC0 and 0xE4 over the eight combinations, the highest PE with P, S and T of 1. -/
theorem test_truthTables :
    let p : Plane := 0xF0
    let s : Plane := 0xCC
    let t : Plane := 0xAA
    (booleanUnit 0x96 p s t).truncate 8 = (0x96 : BitVec 8) ∧ (booleanUnit 0xC0 p s t).truncate 8 = (0xC0 : BitVec 8) ∧
      (booleanUnit 0xE4 p s t).truncate 8 = (0xE4 : BitVec 8) := by decide +kernel

end Sys2Proof.Tests
end

section
/-!
The Pilots' instruction set (chapter 10): how an instruction issues and retires, the registers it reads, the ALU,
immediate and carry rows, the special registers, and the transfers of control.
-/
namespace Sys2Proof.PilotIsa
set_option autoImplicit false
open Sys2Proof Sys2Proof.Machine Sys2Proof.Safety

/-! ## Issue and retirement -/

/-- The command of an instruction that the Pilots execute acts by the instruction's body (R363, R365). -/
theorem issue_of_executes {s t : State} {w : Word} {c : Nat} (h : Executes s t w c) (body : Word → State → Effect) :
    issue s w c body = retire w (body w t) := by
  obtain ⟨hmay, hibp, hfetch, hvalid, hlevel, hcode⟩ := h
  have hdelivered : deliveredWord s = some w := by simp only [deliveredWord, hfetch]
  have hchecked : fetchChecked s = (t, some w) := by simp [fetchChecked, hfetch, hvalid, Nat.not_lt.mpr hlevel]
  simp [issue, hmay, hibp, hdelivered, hchecked, hcode]

theorem exec_of_executes {i : Instr} {s t : State} {w : Word} {c : Nat} {body : Word → State → Effect}
    (hexec : exec i s = .next (issue s w c body)) (h : Executes s t w c) :
    exec i s = .next (retire w (body w t)) := hexec.trans (congrArg _ (issue_of_executes h body))

/-- An effect that takes one PCLK, puts nothing in flight, meets no data breakpoint and goes on (R348). -/
theorem retire_next (w : Word) {e : Effect} (hflow : e.flow = .next) (hpclk : e.pclk = 0) (hflight : e.flight = none)
    (hhit : e.hit = false) : retire w e = inSequence (setGprs (age e.st) e.writes) := by
  obtain ⟨u, writes, flight, pclk, hit, flow⟩ := e
  dsimp only at hflow hpclk hflight hhit
  subst hflow hpclk hflight hhit
  rfl

theorem retire_done_nil (w : Word) (t : State) : retire w (.done t []) = inSequence (age t) :=
  retire_next w rfl rfl rfl rfl

theorem retire_done_single (w : Word) (t : State) (r : BitVec 5) (v : Word) :
    retire w (.done t [(r, v)]) = inSequence (setGpr (age t) r v) := retire_next w rfl rfl rfl rfl

theorem retire_jump (w : Word) (t : State) (a : Word) (k : Nat) :
    retire w (.jump t a (k + 1)) = transferTo (issued t k) a := by
  have hk : 0 + (k + 1 - 1) = k := by omega
  unfold retire
  simp only [Effect.jump, Flow.pclk, hk]
  rfl

theorem retire_ended (w : Word) (t : State) : retire w (.ended t) = t := rfl

/-- A source register that no busy unit will write reads its value (R322). -/
theorem readGpr_of_settled {t : State} {r : BitVec 5} (h : r = 0 ∨ unitOwns t r = false) :
    readGpr t r = (t, gprAt t r) := by
  refine if_neg fun ⟨hr, howned⟩ => ?_
  rcases h with h | h
  · exact hr h
  · exact Bool.false_ne_true (h.symm.trans howned)

theorem readGpr_of_settled_one {t : State} {r : BitVec 5} (h : Settled t [r]) : readGpr t r = (t, gprAt t r) :=
  readGpr_of_settled (h r (by simp))

theorem readGpr_of_settled_two {t : State} {r q : BitVec 5} (h : Settled t [r, q]) :
    readGpr t r = (t, gprAt t r) ∧ readGpr t q = (t, gprAt t q) :=
  ⟨readGpr_of_settled (h r (by simp)), readGpr_of_settled (h q (by simp))⟩

/-! ## ALU group and I-format arithmetic (R316, R317) -/

/-- The instruction of a row writes its result to gd and nothing else. -/
def WritesGd (e : AluRow) : Prop :=
  ∀ (s t : State) (w : Word), Executes s t w e.code → Settled t (e.reads w) →
    exec (e.instr w) s = .next (inSequence (setGpr (age t) (rd w) (e.value w (gprAt t (ra w)) (gprAt t (rb w)))))

theorem writesGd_of_body {e : AluRow} {body : Word → State → Effect}
    (hexec : ∀ w s, exec (e.instr w) s = .next (issue s w e.code body))
    (hbody : ∀ w t, Settled t (e.reads w) →
      body w t = .done t [(rd w, e.value w (gprAt t (ra w)) (gprAt t (rb w)))]) : WritesGd e := by
  intro s t w hx hs
  rw [exec_of_executes (hexec w s) hx, hbody w t hs, retire_done_single]

theorem writesGd_alu2 {code : Nat} {instr : Word → Instr} {f : Word → Word → Word}
    (hexec : ∀ w s, exec (instr w) s = .next (issue s w code (alu2 f))) :
    WritesGd ⟨code, instr, readsAB, fun _ a b => f a b⟩ := by
  refine writesGd_of_body hexec fun w t hs => ?_
  obtain ⟨ha, hb⟩ := readGpr_of_settled_two hs
  simp only [alu2, ha, hb]

theorem writesGd_alu1 {code : Nat} {instr : Word → Instr} {f : Word → Word → Word}
    (hexec : ∀ w s, exec (instr w) s = .next (issue s w code fun w => alu1 (f w) w)) :
    WritesGd ⟨code, instr, readsA, fun w a _ => f w a⟩ :=
  writesGd_of_body hexec fun w t hs => by simp only [alu1, readGpr_of_settled_one hs]

/-- SLTI compares with the sign-extended immediate, which has the immediate's own value. -/
theorem writesGd_slti : WritesGd ⟨0x300, .slti, readsA, fun w a _ => oneIf (decide (a.toInt < (imm16 w).toInt))⟩ := by
  have himm (w : Word) : (imm16 w).toInt = (immS w).toInt := (BitVec.toInt_signExtend_of_le (by decide)).symm
  simp only [himm]
  exact writesGd_alu1 fun _ _ => rfl

/-- Every row of the ALU group and of the I-format arithmetic. -/
theorem writesGd_aluRows : ∀ e ∈ aluRows, WritesGd e := by
  simp only [aluRows, List.cons_append, List.nil_append, List.forall_mem_cons]
  refine ⟨?add, ?sub, ?and, ?or, ?xor, ?nor, ?sll, ?srl, ?sra, ?slli, ?srli, ?srai, ?seq, ?sne, ?slt, ?sltu, ?sle, ?sleu,
    ?sextb, ?sexth, ?addi, ?andi, ?ori, ?xori, writesGd_slti, ?sltiu, ?seqi, ?lui, ?fneg, ?fabs,
    fun _ h => absurd h List.not_mem_nil⟩
  case lui => exact writesGd_of_body (fun _ _ => rfl) fun _ _ _ => rfl
  case add | sub | and | or | xor | nor | sll | srl | sra | seq | sne | slt | sltu | sle | sleu =>
    exact writesGd_alu2 fun _ _ => rfl
  case slli | srli | srai | sextb | sexth | addi | andi | ori | xori | sltiu | seqi | fneg | fabs =>
    exact writesGd_alu1 fun _ _ => rfl

/-! ## The carry instructions (R316, R318) -/

/-- The instruction of a row writes CY, and gd where it has a result. -/
def WritesCy (e : CarryRow) : Prop :=
  ∀ (s t : State) (w : Word), Executes s t w e.code → Settled t (e.reads w) →
    exec (e.instr w) s =
      .next (inSequence (writeOpt
        (age { t with plt := { t.plt with cy := e.carry (gprAt t (ra w)) (gprAt t (rb w)) t.plt.cy } })
        (rd w) (e.value (gprAt t (ra w)) (gprAt t (rb w)) t.plt.cy)))

theorem writesCy_aluCarry {code : Nat} {instr : Word → Instr} {f : Word → Word → Bool → Word × Bool}
    {value : Word → Word → Bool → Word} {carry : Word → Word → Bool → Bool}
    (hexec : ∀ w s, exec (instr w) s = .next (issue s w code (aluCarry f)))
    (hf : ∀ a b c, f a b c = (value a b c, carry a b c)) :
    WritesCy ⟨code, instr, readsAB, fun a b c => some (value a b c), carry⟩ := by
  intro s t w hx hs
  obtain ⟨ha, hb⟩ := readGpr_of_settled_two hs
  rw [exec_of_executes (hexec w s) hx]
  simp only [aluCarry, ha, hb, hf, retire_done_single]
  rfl

theorem addWith_eq (a b : Word) (c : Bool) :
    addWith a b c = (a + b + BitVec.ofNat 32 (cyNat c), decide (2 ^ 32 ≤ a.toNat + b.toNat + cyNat c)) := by
  refine Prod.ext (BitVec.eq_of_toNat_eq ?_) rfl
  simp [addWith, carryNat, cyNat]

theorem writesCy_rdcy : WritesCy ⟨0x056, .rdcy, noReads, fun _ _ c => some (oneIf c), fun _ _ c => c⟩ := by
  intro s t w hx _
  rw [exec_of_executes (body := rdcyBody) rfl hx, rdcyBody, retire_done_single]
  rfl

theorem writesCy_wrcy : WritesCy ⟨0x057, .wrcy, readsA, fun _ _ _ => none, fun a _ _ => a.getLsbD 0⟩ := by
  intro s t w hx hs
  rw [exec_of_executes (body := wrcyBody) rfl hx]
  simp only [wrcyBody, readGpr_of_settled_one hs, retire_done_nil]
  rfl

/-- Every carry instruction. -/
theorem writesCy_carryRows : ∀ e ∈ carryRows, WritesCy e := by
  simp only [carryRows, List.forall_mem_cons]
  refine ⟨?addc, ?subc, ?addcz, ?subcz, writesCy_rdcy, writesCy_wrcy, fun _ h => absurd h List.not_mem_nil⟩
  case addc => exact writesCy_aluCarry (fun _ _ => rfl) addWith_eq
  case subc => exact writesCy_aluCarry (fun _ _ => rfl) fun _ _ _ => rfl
  case addcz =>
    exact writesCy_aluCarry (fun _ _ => rfl) fun a b _ => (addWith_eq a b false).trans (by simp [cyNat])
  case subcz => exact writesCy_aluCarry (fun _ _ => rfl) fun a b _ => by simp [subWith, carryNat]

/-- Settles O2: each row's body writes what its row says, and an instruction retires with what its body writes. -/
theorem aluInstructionsWriteGdAndCy : Obligations.AluInstructionsWriteGdAndCy :=
  ⟨writesGd_aluRows, writesCy_carryRows⟩

/-! ## General and special registers (R306–R310, R336) -/

/-- A write of a general register changes the general registers alone (R306). -/
theorem setGpr_frame (s : State) (r : BitVec 5) (v : Word) :
    setGpr s r v = { s with plt := { s.plt with gpr := (setGpr s r v).plt.gpr } } := by
  unfold setGpr
  split <;> rfl

/-- ST holds CY, IE and PL in their places (R310). -/
theorem stWord_eq_add (t : State) :
    stWord t = (if t.plt.cy then 0x100 else 0) + (if t.plt.ie then 8 else 0) + BitVec.ofNat 32 t.plt.pl.toNat := by
  unfold stWord
  generalize t.plt.cy = cy, t.plt.ie = ie, t.plt.pl = pl
  revert cy ie pl
  decide

/-- A register number from 12 to 26 names word (n − 12) % 5 of save set (n − 7) / 5. -/
theorem srRead_eq_specialReg (t : State) (n : Nat) : srRead t n = specialReg t n := by
  match n with
  | 0 => exact stWord_eq_add t
  | 6 => exact BitVec.ofNat_toNat ..
  | 11 =>
    simp only [srRead, specialReg]
    generalize t.plt.survivor = survivor, t.plt.solo = solo
    revert survivor solo
    decide
  | 1 | 2 | 3 | 4 | 5 | 7 | 8 | 9 | 10 => rfl
  | 12 | 13 | 14 | 15 | 16 | 17 | 18 | 19 | 20 | 21 | 22 | 23 | 24 | 25 | 26 => rfl
  | k + 27 =>
    have hnone : ¬(12 ≤ k + 27 ∧ k + 27 ≤ 26) := by omega
    simp only [srRead, specialReg, if_neg hnone]

theorem srWrite_eq_withSpecialReg (t : State) (n : Nat) (v : Word) : srWrite t n v = withSpecialReg t n v := by
  match n with
  | 0 | 1 | 2 | 3 | 4 | 5 | 6 | 7 | 8 | 9 | 10 | 11 => rfl
  | 12 | 13 | 14 | 15 | 16 | 17 | 18 | 19 | 20 | 21 | 22 | 23 | 24 | 25 | 26 => rfl
  | k + 27 =>
    have hmodel : ¬(12 ≤ k + 27 ∧ k + 27 ≤ 26) := by omega
    have h1 : ¬(12 ≤ k + 27 ∧ k + 27 ≤ 16) := by omega
    have h2 : ¬(17 ≤ k + 27 ∧ k + 27 ≤ 21) := by omega
    have h3 : ¬(22 ≤ k + 27 ∧ k + 27 ≤ 26) := by omega
    rw [withSpecialReg, if_neg h1, if_neg h2, if_neg h3]
    simp only [srWrite, if_neg hmodel]
    rfl

/-- MFS: FCSR waits for the FPU, and a read of CYC captures CYC_HI (R309, R352). -/
theorem exec_mfs {s t : State} {w : Word} (hx : Executes s t w 0x100) :
    let u := if rb w = 4 then awaitUnits t isFpu else t
    let v := if rb w = 6 then { u with plt := { u.plt with cycHi := BitVec.ofNat 32 (u.plt.cyc.toNat / 2 ^ 32) } } else u
    exec (.mfs w) s = .next (inSequence (setGpr (age v) (rd w) (specialReg u (rb w).toNat))) := by
  have hfcsr : (rb w).toNat = 4 ↔ rb w = 4 := BitVec.toNat_inj (y := 4)
  have hcyc : (rb w).toNat = 6 ↔ rb w = 6 := BitVec.toNat_inj (y := 6)
  rw [exec_of_executes (body := mfsBody) rfl hx]
  simp only [mfsBody, retire_done_single, srRead_eq_specialReg, hfcsr, hcyc, Nat.shiftRight_eq_div_pow]
  rfl

/-- The registers of the return stack refuse a value under R336. -/
theorem rspRefused_iff (v : Word) :
    rspRefused v = true ↔ v.toNat % 4 ≠ 0 ∨ v.toNat < 0x7C0000 ∨ 0x800000 < v.toNat := by
  simp [rspRefused, or_assoc]

theorem isStackRegister_iff (r : BitVec 5) : 1 ≤ r.toNat ∧ r.toNat ≤ 3 ↔ r = 1 ∨ r = 2 ∨ r = 3 := by bv_omega

/-- MTS of a value that its register takes (R308, R310, R352). -/
theorem mtsBody_taken {t u : State} {w : Word} (hu : (if rb w = 4 then awaitUnits t isFpu else t) = u)
    (hs : Settled u [ra w]) (htakes : rb w = 1 ∨ rb w = 2 ∨ rb w = 3 → rspRefused (gprAt u (ra w)) = false) :
    mtsBody w t = .done (withSpecialReg u (rb w).toNat (gprAt u (ra w))) [] := by
  have hfcsr : (rb w).toNat = 4 ↔ rb w = 4 := BitVec.toNat_inj (y := 4)
  have htaken : ¬(1 ≤ (rb w).toNat ∧ (rb w).toNat ≤ 3 ∧ rspRefused (gprAt u (ra w)) = true) := fun ⟨h1, h3, hrefused⟩ =>
    Bool.false_ne_true ((htakes ((isStackRegister_iff _).mp ⟨h1, h3⟩)).symm.trans hrefused)
  simp only [mtsBody, hfcsr, hu, readGpr_of_settled_one hs, if_neg htaken, srWrite_eq_withSpecialReg]

theorem exec_mts {s t u : State} {w : Word} (hx : Executes s t w 0x101)
    (hu : (if rb w = 4 then awaitUnits t isFpu else t) = u) (hs : Settled u [ra w])
    (htakes : rb w = 1 ∨ rb w = 2 ∨ rb w = 3 → rspRefused (gprAt u (ra w)) = false) :
    exec (.mts w) s = .next (inSequence (age (withSpecialReg u (rb w).toNat (gprAt u (ra w))))) := by
  rw [exec_of_executes (body := mtsBody) rfl hx, mtsBody_taken hu hs htakes, retire_done_nil]

/-! ## Entry to a level by an exception of the instruction at pc (R364, R366) -/

theorem enterLevel_eq_entered (t : State) (n : Nat) (savePc cause val : Word) (interrupt : Bool) (h1 : 1 ≤ n)
    (h3 : n ≤ 3) : enterLevel t n savePc cause val interrupt = entered (drained t) n savePc cause val interrupt := by
  unfold enterLevel
  generalize drained t = d
  obtain rfl | rfl | rfl : n = 1 ∨ n = 2 ∨ n = 3 := by omega
  · rfl
  · rfl
  · rfl

/-- Below level 3 an exception enters the next level (R364). -/
theorem raiseAt_below_three {t : State} (h : t.plt.pl ≠ 3) (code detail : Nat) (wr half2 : Bool) (savePc val : Word) :
    raiseAt t code detail wr half2 savePc val =
      entered (drained t) (t.plt.pl.toNat + 1) savePc (causeWord code detail wr half2 false) val false := by
  rw [raiseAt, if_neg h, enterLevel_eq_entered _ _ _ _ _ _ (by omega) (by bv_omega)]

/-- MTS of a value that RSP, RSLO or RSHI refuses raises PROT with DETAIL 5 (R336, R370). -/
theorem exec_mts_refused {s t : State} {w : Word} (hx : Executes s t w 0x101) (hs : Settled t [ra w])
    (hpl : t.plt.pl ≠ 3) (hreg : rb w = 1 ∨ rb w = 2 ∨ rb w = 3) (hrefused : rspRefused (gprAt t (ra w)) = true) :
    exec (.mts w) s = .next (entered (drained t) (t.plt.pl.toNat + 1) t.plt.pc 0x504 (gprAt t (ra w)) false) := by
  obtain ⟨h1, h3⟩ := (isStackRegister_iff _).mpr hreg
  have hfcsr : (rb w).toNat ≠ 4 := by omega
  rw [exec_of_executes (body := mtsBody) rfl hx]
  simp only [mtsBody, if_neg hfcsr, readGpr_of_settled_one hs, h1, h3, hrefused, and_self, if_true, Effect.raise,
    retire_ended, raiseHere, raiseAt_below_three hpl]
  rfl

/-- Settles O1: a write of a general register reads back; MFS, MTS and the PROT of MTS by their bodies. -/
theorem registersKeepWhatIsWritten : Obligations.RegistersKeepWhatIsWritten := by
  refine ⟨fun s r q v => ⟨gprAt_zero s, rfl, gprAt_setGpr s r q v, setGpr_frame s r v⟩,
    fun s t w => ⟨fun hx => exec_mfs hx, fun hx hs htakes => exec_mts hx rfl hs fun hreg => ?_⟩,
    fun s t w hx hs hpl hreg hbad => exec_mts_refused hx hs hpl hreg ((rspRefused_iff _).mpr hbad)⟩
  obtain ⟨halign, hlow, hhigh⟩ := htakes hreg
  rw [Bool.eq_false_iff, ne_eq, rspRefused_iff]
  omega

/-! ## Branches and jumps (R333, R335) -/

theorem off21_eq_branchOff (w : Word) : off21 w = branchOff w := by
  rw [off21, branchOff, BitVec.shiftLeft_eq_mul_twoPow, BitVec.mul_comm]
  rfl

theorem off26_eq_jumpOff (w : Word) : off26 w = jumpOff w := by
  rw [off26, jumpOff, BitVec.shiftLeft_eq_mul_twoPow, BitVec.mul_comm]
  rfl

/-- A conditional branch goes to its target, or on to the next instruction. -/
theorem retire_branch {t : State} {w : Word} (hs : Settled t [rd w]) (test : Word → Bool) :
    retire w (branch test w t) =
      if test (gprAt t (rd w)) then transferTo (issued t 1) (t.plt.pc + branchOff w) else inSequence (age t) := by
  simp only [branch, readGpr_of_settled_one hs, off21_eq_branchOff]
  cases test (gprAt t (rd w)) with
  | true => exact retire_jump w t _ 1
  | false => exact retire_done_nil w t

theorem exec_bez {s t : State} {w : Word} (hx : Executes s t w 0x800) (hs : Settled t [rd w]) :
    exec (.bez w) s = .next (if gprAt t (rd w) = 0 then transferTo (issued t 1) (t.plt.pc + branchOff w)
      else inSequence (age t)) := by
  rw [exec_of_executes (body := branch fun a => decide (a = 0)) rfl hx, retire_branch hs]
  simp only [decide_eq_true_eq]

theorem exec_bnz {s t : State} {w : Word} (hx : Executes s t w 0x840) (hs : Settled t [rd w]) :
    exec (.bnz w) s = .next (if gprAt t (rd w) ≠ 0 then transferTo (issued t 1) (t.plt.pc + branchOff w)
      else inSequence (age t)) := by
  rw [exec_of_executes (body := branch fun a => decide (a ≠ 0)) rfl hx, retire_branch hs]
  simp only [decide_eq_true_eq]

theorem exec_j {s t : State} {w : Word} (hx : Executes s t w 0x880) :
    exec (.j w) s = .next (transferTo (issued t 1) (t.plt.pc + jumpOff w)) := by
  rw [exec_of_executes (body := jBody) rfl hx, jBody, retire_jump, off26_eq_jumpOff]

theorem exec_jr {s t : State} {w : Word} (hx : Executes s t w 0x109) (hs : Settled t [ra w])
    (halign : (gprAt t (ra w)).toNat % 4 = 0) :
    exec (.jr w) s = .next (transferTo (issued t 1) (gprAt t (ra w))) := by
  rw [exec_of_executes (body := jrBody) rfl hx]
  simp only [jrBody, readGpr_of_settled_one hs, halign, ne_eq, not_true_eq_false, if_false, retire_jump]

/-! ## Calls and returns (R333, R334) -/

/-- The bytes of a number are its digits to the base 256. -/
theorem bytesOf_eq_map_range (n v : Nat) : bytesOf v n = (List.range n).map fun i => BitVec.ofNat 8 (v / 256 ^ i) := by
  induction n generalizing v with
  | zero => rfl
  | succ n ih =>
    simp [bytesOf, ih, List.range_succ_eq_map, Nat.div_div_eq_div_mul, Nat.pow_succ']

/-- The push of a call lands, and its target is aligned. -/
theorem callTo_eq_jump {t v : State} {target : Word} (hlow : t.plt.rslo.toNat + 4 ≤ t.plt.rsp.toNat)
    (hhigh : t.plt.rsp.toNat ≤ t.plt.rshi.toNat) (halign : target.toNat % 4 = 0)
    (hwrite : homeWrite t 0 (t.plt.rsp.toNat - 4) (bytesOf (t.plt.pc + 4).toNat 4) = (v, true)) :
    callTo target t = .jump { v with plt := { v.plt with rsp := v.plt.rsp - 4 } } target 2 := by
  simp only [callTo, Nat.not_lt.mpr hlow, Nat.not_lt.mpr hhigh, halign, hwrite, ne_eq, not_true_eq_false, if_false,
    Bool.true_eq_false]
  rfl

/-- RET pops the address at RSP. -/
theorem retBody_eq_jump {t v : State} {w : Word} {bs : List Byte} (hlow : t.plt.rslo.toNat ≤ t.plt.rsp.toNat)
    (hhigh : t.plt.rsp.toNat + 4 ≤ t.plt.rshi.toNat) (hread : homeRead t 0 t.plt.rsp.toNat 4 = (v, false, bs))
    (halign : numOf bs % 4 = 0) :
    retBody w t = .jump { v with plt := { v.plt with rsp := v.plt.rsp + 4 } } (BitVec.ofNat 32 (numOf bs)) 3 := by
  have haligned : (BitVec.ofNat 32 (numOf bs)).toNat % 4 = 0 := by
    rw [BitVec.toNat_ofNat]
    omega
  simp only [retBody, word32, Nat.not_lt.mpr hlow, Nat.not_lt.mpr hhigh, hread, haligned, ne_eq, not_true_eq_false,
    if_false, Bool.false_eq_true]
  rfl

theorem exec_call {s t : State} {w : Word} {u : State} (hx : Executes s t w 0x8C0)
    (hpush : callTo (t.plt.pc + jumpOff w) t = .jump u (t.plt.pc + jumpOff w) 2) :
    exec (.call w) s = .next (transferTo (issued u 1) (t.plt.pc + jumpOff w)) := by
  rw [exec_of_executes (body := callBody) rfl hx, callBody, off26_eq_jumpOff, hpush, retire_jump]

theorem exec_callr {s t : State} {w : Word} {u : State} (hx : Executes s t w 0x10A) (hs : Settled t [ra w])
    (hpush : callTo (gprAt t (ra w)) t = .jump u (gprAt t (ra w)) 2) :
    exec (.callr w) s = .next (transferTo (issued u 1) (gprAt t (ra w))) := by
  rw [exec_of_executes (body := callrBody) rfl hx]
  simp only [callrBody, readGpr_of_settled_one hs, hpush, retire_jump]

/-! ## Accesses to the return stack (R337) -/

/-- An aligned word of the return-stack region (R337, R406). -/
def StackWord (a : Nat) : Prop := a % 4 = 0 ∧ 0x7C0000 ≤ a ∧ a < 0x800000

theorem pilotPlace_rstack {a : Nat} (hlow : 0x7C0000 ≤ a) (hhigh : a < 0x800000) : pilotPlace a = .rstack := by
  rw [pilotPlace, if_neg (by omega), if_pos hhigh]

theorem StackWord.place {a : Nat} (h : StackWord a) : pilotPlace a = .rstack := by
  obtain ⟨_, hlow, hhigh⟩ := h
  exact pilotPlace_rstack hlow hhigh

theorem moduleOf_rstack (t : State) {a : Nat} (hlow : 0x7C0000 ≤ a) (hhigh : a < 0x800000) :
    moduleOf t a = 0x8000000000 + a := by
  simp only [moduleOf, pilotPlace_rstack hlow hhigh]

theorem rsRefusal_stackWord {ea : Word} (h : StackWord ea.toNat) : rsRefusal ea = none := by
  have halign : ea.toNat % 4 = 0 := h.1
  simp [rsRefusal, halign, h.place]

/-- The bytes of an aligned word of the return stack lie in one 64-byte block. -/
theorem wordBlocks_stackWord (t : State) {a : Nat} (h : StackWord a) :
    ((pilotBytes a 4).map fun b => moduleOf t b / 64) = List.replicate 4 (moduleOf t a / 64) := by
  obtain ⟨halign, hlow, hhigh⟩ := h
  have hblock (x : Nat) (hfirst : a ≤ x) (hlast : x < a + 4) : moduleOf t (x % 2 ^ 32) / 64 = moduleOf t a / 64 := by
    rw [Nat.mod_eq_of_lt (by omega), moduleOf_rstack t (by omega) (by omega), moduleOf_rstack t hlow hhigh]
    omega
  simp only [pilotBytes, rangeFrom, List.map_cons, List.map_nil]
  rw [hblock a (by omega) (by omega), hblock (a + 1) (by omega) (by omega), hblock (a + 1 + 1) (by omega) (by omega),
    hblock (a + 1 + 1 + 1) (by omega) (by omega)]
  rfl

/-- A store within one block ends the Pilot's reservation of that block and no other (R330). -/
theorem ownStore_replicate (v : State) (b : Nat) :
    ownStore v (List.replicate 4 b) =
      if v.plt.resv = some b then { v with plt := { v.plt with resv := none } } else v := by
  unfold ownStore
  cases hresv : v.plt.resv with
  | none => rfl
  | some c => simp [updPlt]

theorem pilotLoad_stackWord {t v : State} {a : Nat} {bs : List Byte} (h : StackWord a)
    (hread : homeRead t 0 a 4 = (v, false, bs)) : pilotLoad t .pilot a 4 = (v, .ok, bs, 0) := by
  simp only [pilotLoad, h.place, hread, Bool.false_eq_true, if_false]

theorem pilotStore_stackWord {t v : State} {a n : Nat} (h : StackWord a)
    (hwrite : homeWrite t 0 a (bytesOf n 4) = (v, true)) :
    pilotStore t .pilot a (bytesOf n 4) 0 =
      (if v.plt.resv = some (moduleOf t a / 64) then { v with plt := { v.plt with resv := none } } else v, .ok, 0) := by
  simp only [pilotStore, h.place, hwrite, bytesOf_length, wordBlocks_stackWord t h, ownStore_replicate, if_true]

/-- RSLD of a word that meets no error and no data breakpoint. -/
theorem rsldBody_eq_done {t v : State} {w ea : Word} {bs : List Byte} (hea : readGpr t (ra w) = (t, ea))
    (hword : StackWord ea.toNat) (hread : homeRead t 0 ea.toNat 4 = (v, false, bs))
    (hquiet : dbpHit t false (pilotBytes ea.toNat 4) = false) :
    rsldBody w t = .done v [(rd w, BitVec.ofNat 32 (numOf bs))] := by
  rw [rsldBody, hea]
  dsimp only
  rw [rsRefusal_stackWord hword, pilotLoad_stackWord hword hread, hquiet]
  rfl

/-- RSST of a word that meets no error and no data breakpoint. -/
theorem rsstBody_eq_done {t v : State} {w ea x : Word} (hea : readGpr t (ra w) = (t, ea))
    (hx : readGpr t (rb w) = (t, x)) (hword : StackWord ea.toNat)
    (hwrite : homeWrite t 0 ea.toNat (bytesOf x.toNat 4) = (v, true))
    (hquiet : dbpHit t true (pilotBytes ea.toNat 4) = false) :
    rsstBody w t = .done (if v.plt.resv = some (moduleOf t ea.toNat / 64)
      then { v with plt := { v.plt with resv := none } } else v) [] := by
  rw [rsstBody, hea]
  dsimp only
  rw [hx]
  dsimp only
  rw [rsRefusal_stackWord hword, pilotStore_stackWord hword hwrite, hquiet]
  rfl

/-- Settles O6: each transfer's body jumps to its target, and RSLD and RSST reach their word. -/
theorem transfersOfControlSetPc : Obligations.TransfersOfControlSetPc := by
  refine ⟨fun s t w => ⟨?branches, exec_j, exec_jr⟩, ?calls, ?ret, ?stack⟩
  case branches =>
    intro taken p hp hx hs hzero
    simp only [List.mem_cons, List.not_mem_nil, or_false] at hp
    obtain rfl | rfl := hp
    · simp only [exec_bez hx hs, hzero]
    · simp only [exec_bnz hx hs, ne_eq, hzero, Bool.not_eq_true', Bool.not_eq_false]
  case calls =>
    intro s t v w hlow hhigh hwrite
    rw [← bytesOf_eq_map_range] at hwrite
    exact ⟨fun hx halign => exec_call hx (callTo_eq_jump hlow hhigh halign hwrite),
      fun hx hs halign => exec_callr hx hs (callTo_eq_jump hlow hhigh halign hwrite)⟩
  case ret =>
    intro s t v w bs hx hlow hhigh hread halign
    rw [exec_of_executes (body := retBody) rfl hx, retBody_eq_jump hlow hhigh hread halign, retire_jump]
  case stack =>
    intro s t v w a halign hlow hhigh
    have hword : StackWord (gprAt t (ra w)).toNat := ⟨halign, hlow, hhigh⟩
    constructor
    · intro bs hx hs hread hquiet
      rw [exec_of_executes (body := rsldBody) rfl hx,
        rsldBody_eq_done (readGpr_of_settled_one hs) hword hread hquiet, retire_done_single]
    · intro hx hs hwrite hquiet
      obtain ⟨ha, hb⟩ := readGpr_of_settled_two hs
      rw [← bytesOf_eq_map_range] at hwrite
      rw [exec_of_executes (body := rsstBody) rfl hx, rsstBody_eq_done ha hb hword hwrite hquiet, retire_done_nil]

end Sys2Proof.PilotIsa
end

section
/-!
The fabric's queue controllers (chapter 14): how a block's queue takes and gives words, what its flags record, how SQ and
CQ blocks carry descriptors and completions, and how a commit sets a block.
-/
namespace Sys2Proof.FabricQueues
set_option autoImplicit false
open Sys2Proof Sys2Proof.Machine

/-! ## Fields and flags -/

theorem testBit_bits (w : Word) (hi lo i : Nat) :
    (bits w hi lo).testBit i = (decide (i < hi + 1 - lo) && bit w (lo + i)) := by
  rw [bits, Nat.testBit_mod_two_pow, Nat.testBit_shiftRight]
  rfl

/-- A field that was replaced reads as the low bits of its new value. -/
theorem bits_setBits {hi lo : Nat} (h : hi < 32) (w : Word) (v : Nat) :
    bits (setBits w hi lo v) hi lo = v % 2 ^ (hi + 1 - lo) := by
  refine Nat.eq_of_testBit_eq fun i => ?_
  rw [testBit_bits, bit_setBits, Nat.testBit_mod_two_pow]
  by_cases hi' : i < hi + 1 - lo
  · rw [if_pos (by omega), Nat.add_sub_cancel_left]
  · simp only [hi', decide_false, Bool.false_and]

theorem getField_setField {hi lo : Nat} (h : hi < 32) (s : State) (off v : Nat) :
    getField (setField s off hi lo v) off hi lo = v % 2 ^ (hi + 1 - lo) := by
  rw [getField, reg_setField, if_pos rfl, bits_setBits h]

/-- A flag of a block and the event that goes with it both read 1 once they are set. -/
theorem getFlag_fabEvent_setFlag (s : State) (off : Nat) {i j : Nat} (hi : i < 32) (hj : j < 32) :
    getFlag (fabEvent (setFlag s off i) j) off i = true ∧ getFlag (fabEvent (setFlag s off i) j) Reg.fabEvt j = true := by
  simp only [fabEvent, getFlag_setFlag _ _ _ _ _ hi, getFlag_setFlag _ _ _ _ _ hj, and_self, if_true, ite_self]

theorem blockOverflow_flags (s : State) (k : Nat) :
    getFlag (blockOverflow s k) (Reg.fabQstat + 0x20 * k) 5 = true ∧ getFlag (blockOverflow s k) Reg.fabEvt 3 = true :=
  getFlag_fabEvent_setFlag s _ (by decide) (by decide)

theorem blockUnderflow_flags (s : State) (k : Nat) :
    getFlag (blockUnderflow s k) (Reg.fabQstat + 0x20 * k) 6 = true ∧ getFlag (blockUnderflow s k) Reg.fabEvt 4 = true :=
  getFlag_fabEvent_setFlag s _ (by decide) (by decide)

theorem getFlag_report (s : State) (src inst : Nat) (detail : Word) (off i : Nat) :
    getFlag (report s src inst detail) off i = getFlag s off i := rfl

theorem blockParity_flags (s : State) (k : Nat) :
    getFlag (blockParity s k) (Reg.fabQstat + 0x20 * k) 7 = true ∧ getFlag (blockParity s k) Reg.fabEvt 5 = true := by
  rw [blockParity, getFlag_report, getFlag_report]
  exact getFlag_fabEvent_setFlag s _ (by decide) (by decide)

/-! ## The queue of a block (R470, R474) -/

theorem blockQ_setBlock_same (s : State) (k : Nat) (b : QBlock) : blockQ (setBlock s k b) k = b := by
  rw [blockQ_setBlock, if_pos rfl]

theorem blockQ_setBlock_ne (s : State) (b : QBlock) {k m : Nat} (h : m ≠ k) : blockQ (setBlock s k b) m = blockQ s m := by
  rw [blockQ_setBlock, if_neg h]

/-- The state in which block k holds the words l. -/
def withWords (s : State) (k : Nat) (l : List (BitVec 72 × Bool)) : State :=
  setBlock s k { blockQ s k with words := l }

theorem blockQ_withWords (s : State) (k : Nat) (l : List (BitVec 72 × Bool)) :
    blockQ (withWords s k l) k = { blockQ s k with words := l } := blockQ_setBlock_same ..

theorem getFlag_withWords (s : State) (k : Nat) (l : List (BitVec 72 × Bool)) (off i : Nat) :
    getFlag (withWords s k l) off i = getFlag s off i := rfl

theorem pushWord_of_room {s : State} {k : Nat} (h : (blockQ s k).words.length < blockDepth (qcfgOf s k)) (w : BitVec 72)
    (ok : Bool) : pushWord s k w ok = withWords s k ((blockQ s k).words ++ [(cutWord (qcfgOf s k) w, ok)]) :=
  if_neg (Nat.not_le.mpr h)

theorem pushWord_of_full {s : State} {k : Nat} (h : blockDepth (qcfgOf s k) ≤ (blockQ s k).words.length) (w : BitVec 72)
    (ok : Bool) : pushWord s k w ok = blockOverflow s k := if_pos h

theorem popWord_of_empty {s : State} {k : Nat} (h : (blockQ s k).words = []) : popWord s k = (blockUnderflow s k, 0) := by
  simp only [popWord, h]

theorem popWord_of_cons {s : State} {k : Nat} {w : BitVec 72} {ok : Bool} {l : List (BitVec 72 × Bool)}
    (h : (blockQ s k).words = (w, ok) :: l) :
    popWord s k = (if ok = true ∨ blockMode s k = 1 then withWords s k l else blockParity (withWords s k l) k, w) := by
  simp only [popWord, h]
  rfl

theorem popWord_of_good {s : State} {k : Nat} {w : BitVec 72} {ok : Bool} {l : List (BitVec 72 × Bool)}
    (h : (blockQ s k).words = (w, ok) :: l) (hgood : ok = true ∨ blockMode s k = 1) :
    popWord s k = (withWords s k l, w) := by
  rw [popWord_of_cons h, if_pos hgood]

theorem popWord_of_bad {s : State} {k : Nat} {w : BitVec 72} {l : List (BitVec 72 × Bool)}
    (h : (blockQ s k).words = (w, false) :: l) (hmode : blockMode s k ≠ 1) :
    popWord s k = (blockParity (withWords s k l) k, w) := by
  rw [popWord_of_cons h, if_neg fun hgood => hgood.elim Bool.false_ne_true hmode]

theorem spoilHead_of_cons {s : State} {k : Nat} {w : BitVec 72} {ok : Bool} {l : List (BitVec 72 × Bool)}
    (h : (blockQ s k).words = (w, ok) :: l) : spoilHead s k = withWords s k ((w, false) :: l) := by
  simp only [spoilHead, h]
  rfl

/-! ## User logic and its clocks (R470, R483) -/

/-- The region of block k is RUNNING and a clock runs on that side of the block. -/
def Clocked (s : State) (k : Nat) (side : Bool) : Prop :=
  (regionOf s (k / 16)).phase = .running ∧ blockClocked s k side = true

theorem stopped_iff (s : State) (k : Nat) (side : Bool) :
    regionRuns s (k / 16) = false ∨ blockClocked s k side = false ↔ ¬ Clocked s k side := by
  simp only [Clocked, regionRuns, decide_eq_false_iff_not, Classical.not_and_iff_not_or_not, Bool.not_eq_true]

theorem Clocked.not_stopped {s : State} {k : Nat} {side : Bool} (h : Clocked s k side) :
    ¬(regionRuns s (k / 16) = false ∨ blockClocked s k side = false) := fun hstop => (stopped_iff ..).mp hstop h

section UserLogic
variable {s : State} {n : BitVec 7}

theorem exec_queuePush_of_stopped (h : ¬ Clocked s n.toNat false) (w : BitVec 72) (ok : Bool) :
    exec (.queuePush n w ok) s = .next s := congrArg _ (if_pos ((stopped_iff ..).mpr h))

theorem exec_queuePush_fifo (hc : Clocked s n.toNat false) (hmode : blockMode s n.toNat = 1 ∨ blockMode s n.toNat = 2)
    (w : BitVec 72) (ok : Bool) : exec (.queuePush n w ok) s = .next (pushWord s n.toNat w ok) := by
  refine congrArg Host.Outcome.next ((if_neg hc.not_stopped).trans ?_)
  obtain hmode | hmode := hmode
  · simp only [hmode]
  · simp only [hmode]

theorem exec_queuePush_sq (hc : Clocked s n.toNat false) (hmode : blockMode s n.toNat = 4) (w : BitVec 72) (ok : Bool) :
    exec (.queuePush n w ok) s = .next (pushSq s n.toNat (cutWord (qcfgOf s n.toNat) w, ok)) := by
  refine congrArg Host.Outcome.next ((if_neg hc.not_stopped).trans ?_)
  simp only [hmode]

theorem exec_queuePop_of_stopped (h : ¬ Clocked s n.toNat true) (w : Option (BitVec 72)) (ok : Bool) :
    exec (.queuePop n w ok) s = .next s := congrArg _ (if_pos ((stopped_iff ..).mpr h))

variable {u : State} {x : BitVec 72}

/-- A pop in FIFO or DOWN mode that no push meets. -/
theorem exec_queuePop_fifo (hc : Clocked s n.toNat true) (hmode : blockMode s n.toNat = 1 ∨ blockMode s n.toNat = 3)
    (hpop : popWord s n.toNat = (u, x)) : exec (.queuePop n none true) s = .next (delivered n.toNat (u, x)) := by
  refine congrArg Host.Outcome.next ((if_neg hc.not_stopped).trans ?_)
  obtain hmode | hmode := hmode
  · simp only [ite_self, if_true, hmode, hpop]
  · simp only [ite_self, if_true, hmode, hpop]

/-- A push in the same cycle finds the queue as the pop leaves it (R470). -/
theorem exec_queuePop_meetsPush (hc : Clocked s n.toNat true) (hp : Clocked s n.toNat false)
    (hmode : blockMode s n.toNat = 1) (hpop : popWord s n.toNat = (u, x)) (w : BitVec 72) :
    exec (.queuePop n (some w) true) s = .next (delivered n.toNat (pushWord u n.toNat w true, x)) := by
  refine congrArg Host.Outcome.next ((if_neg hc.not_stopped).trans ?_)
  simp only [hp.2, if_true, hmode, hpop]

/-- A pop of a CQ block's word counts the words of its completion (R477). -/
theorem exec_queuePop_cq (hc : Clocked s n.toNat true) (hmode : blockMode s n.toNat = 5)
    (hwords : (blockQ s n.toNat).words ≠ []) (hpop : popWord s n.toNat = (u, x)) :
    exec (.queuePop n none true) s = .next (delivered n.toNat (freeEntry u n.toNat, x)) := by
  refine congrArg Host.Outcome.next ((if_neg hc.not_stopped).trans ?_)
  simp only [if_true, hmode, if_neg hwords, hpop]

/-- A word whose parity fails at its pop is popped as one that stands with bad parity (R474). -/
theorem exec_queuePop_badParity (hc : Clocked s n.toNat true) {w : BitVec 72} {ok : Bool} {l : List (BitVec 72 × Bool)}
    (h : (blockQ s n.toNat).words = (w, ok) :: l) :
    exec (.queuePop n none false) s = exec (.queuePop n none true) (withWords s n.toNat ((w, false) :: l)) := by
  have hc' : Clocked (withWords s n.toNat ((w, false) :: l)) n.toNat true := hc
  refine congrArg Host.Outcome.next ((if_neg hc.not_stopped).trans (.trans ?_ (if_neg hc'.not_stopped).symm))
  simp only [ite_self, if_true, Bool.false_eq_true, if_false, spoilHead_of_cons h]

end UserLogic

/-! ## What a pop gives to user logic -/

/-- Block k gave the word w to user logic. -/
def Popped (s t : State) (k : Nat) (w : BitVec 72) : Prop := t.out = s.out ++ [Out.popped k w] ∧ t.reply = [w.toNat]

/-- The queues of the other blocks, memory and the regions are as before. -/
def KeepsOthers (s t : State) (k : Nat) : Prop :=
  (∀ m, m ≠ k → blockQ t m = blockQ s m) ∧ t.mem = s.mem ∧ t.fab.regions = s.fab.regions

theorem KeepsOthers.refl (s : State) (k : Nat) : KeepsOthers s s k := ⟨fun _ _ => rfl, rfl, rfl⟩

theorem KeepsOthers.withWords {s t : State} {k : Nat} (h : KeepsOthers s t k) (l : List (BitVec 72 × Bool)) :
    KeepsOthers s (withWords t k l) k := by
  obtain ⟨hblocks, hmem, hregions⟩ := h
  exact ⟨fun m hm => (blockQ_setBlock_ne t _ hm).trans (hblocks m hm), hmem, hregions⟩

theorem KeepsOthers.blockUnderflow {s t : State} {k : Nat} (h : KeepsOthers s t k) :
    KeepsOthers s (blockUnderflow t k) k := h

theorem KeepsOthers.delivered {s t : State} {k : Nat} (h : KeepsOthers s t k) (w : BitVec 72) :
    KeepsOthers s (delivered k (t, w)) k := h

theorem popped_delivered {s t : State} (h : t.out = s.out) (k : Nat) (w : BitVec 72) :
    Popped s (delivered k (t, w)) k w := ⟨congrArg (· ++ [Out.popped k w]) h, rfl⟩

theorem getFlag_of_regs {s t : State} (h : t.regs = s.regs) (off i : Nat) : getFlag t off i = getFlag s off i := by
  rw [getFlag, getFlag, reg, reg, h]

theorem blockQ_delivered (k : Nat) (t : State) (w : BitVec 72) (m : Nat) :
    blockQ (delivered k (t, w)) m = blockQ t m := rfl

theorem getFlag_delivered (k : Nat) (t : State) (w : BitVec 72) (off i : Nat) :
    getFlag (delivered k (t, w)) off i = getFlag t off i := rfl

theorem withWords_out (s : State) (k : Nat) (l : List (BitVec 72 × Bool)) : (withWords s k l).out = s.out := rfl

theorem withWords_flt (s : State) (k : Nat) (l : List (BitVec 72 × Bool)) : (withWords s k l).flt = s.flt := rfl

theorem blockParity_out (s : State) (k : Nat) : (blockParity s k).out = s.out := rfl

theorem blockParity_reports (s : State) (k : Nat) :
    (blockParity s k).flt.reports = s.flt.reports ++ [⟨0x0E, BitVec.ofNat 9 k, 0⟩] := rfl

theorem blockQ_blockUnderflow (s : State) (k m : Nat) : blockQ (blockUnderflow s k) m = blockQ s m := rfl

theorem blockQ_setPair (s : State) (q : Nat) (p : Pair) (m : Nat) : blockQ (setPair s q p) m = blockQ s m := rfl

/-! ## Words in order (R470) -/

section Fifo
variable {s : State} {n : BitVec 7}

theorem queuePush_room (hc : Clocked s n.toNat false) (hmode : blockMode s n.toNat = 1 ∨ blockMode s n.toNat = 2)
    (hroom : (blockQ s n.toNat).words.length < blockDepth (qcfgOf s n.toNat)) (w : BitVec 72) (ok : Bool) :
    exec (.queuePush n w ok) s =
      .next (withWords s n.toNat ((blockQ s n.toNat).words ++ [(cutWord (qcfgOf s n.toNat) w, ok)])) := by
  rw [exec_queuePush_fifo hc hmode, pushWord_of_room hroom]

/-- A push while full sets OVF and stores nothing. -/
theorem queuePush_full (hc : Clocked s n.toNat false) (hmode : blockMode s n.toNat = 1 ∨ blockMode s n.toNat = 2)
    (hfull : blockDepth (qcfgOf s n.toNat) ≤ (blockQ s n.toNat).words.length) (w : BitVec 72) (ok : Bool) :
    ∃ t, exec (.queuePush n w ok) s = .next t ∧ t.fab = s.fab ∧
      getFlag t (Reg.fabQstat + 0x20 * n.toNat) 5 = true ∧ getFlag t Reg.fabEvt 3 = true := by
  rw [exec_queuePush_fifo hc hmode, pushWord_of_full hfull]
  exact ⟨_, rfl, rfl, blockOverflow_flags ..⟩

/-- A pop while empty delivers 0 and sets UNF. -/
theorem queuePop_empty (hc : Clocked s n.toNat true) (hmode : blockMode s n.toNat = 1 ∨ blockMode s n.toNat = 3)
    (h : (blockQ s n.toNat).words = []) :
    ∃ t, exec (.queuePop n none true) s = .next t ∧ t.fab = s.fab ∧ Popped s t n.toNat 0 ∧
      getFlag t (Reg.fabQstat + 0x20 * n.toNat) 6 = true ∧ getFlag t Reg.fabEvt 4 = true := by
  rw [exec_queuePop_fifo hc hmode (popWord_of_empty h)]
  refine ⟨_, rfl, rfl, popped_delivered rfl .., ?_⟩
  rw [getFlag_delivered, getFlag_delivered]
  exact blockUnderflow_flags ..

/-- A pop delivers the oldest word. -/
theorem queuePop_head (hc : Clocked s n.toNat true) (hmode : blockMode s n.toNat = 1 ∨ blockMode s n.toNat = 3)
    {w : BitVec 72} {l : List (BitVec 72 × Bool)} (h : (blockQ s n.toNat).words = (w, true) :: l) :
    ∃ t, exec (.queuePop n none true) s = .next t ∧ blockQ t n.toNat = { blockQ s n.toNat with words := l } ∧
      Popped s t n.toNat w ∧ KeepsOthers s t n.toNat ∧ t.regs = s.regs := by
  rw [exec_queuePop_fifo hc hmode (popWord_of_good h (.inl rfl))]
  refine ⟨_, rfl, ?_, popped_delivered rfl .., ((KeepsOthers.refl ..).withWords _).delivered _, rfl⟩
  rw [blockQ_delivered, blockQ_withWords]

/-- A pop while empty delivers 0, and a push in the same cycle is stored. -/
theorem queuePop_empty_meetsPush (hc : Clocked s n.toNat true) (hp : Clocked s n.toNat false)
    (hmode : blockMode s n.toNat = 1) (w : BitVec 72) (h : (blockQ s n.toNat).words = [])
    (hdepth : 0 < blockDepth (qcfgOf s n.toNat)) :
    ∃ t, exec (.queuePop n (some w) true) s = .next t ∧
      blockQ t n.toNat = { blockQ s n.toNat with words := [(cutWord (qcfgOf s n.toNat) w, true)] } ∧
      Popped s t n.toNat 0 ∧ getFlag t (Reg.fabQstat + 0x20 * n.toNat) 6 = true ∧ KeepsOthers s t n.toNat := by
  have hroom : (blockQ (blockUnderflow s n.toNat) n.toNat).words.length <
      blockDepth (qcfgOf (blockUnderflow s n.toNat) n.toNat) := by
    rw [blockQ_blockUnderflow, h]
    exact hdepth
  rw [exec_queuePop_meetsPush hc hp hmode (popWord_of_empty h), pushWord_of_room hroom, blockQ_blockUnderflow, h]
  refine ⟨_, rfl, ?_, popped_delivered rfl .., ?_, ((KeepsOthers.refl ..).blockUnderflow.withWords _).delivered _⟩
  · rw [blockQ_delivered, blockQ_withWords, blockQ_blockUnderflow]
    rfl
  · rw [getFlag_delivered, getFlag_withWords]
    exact (blockUnderflow_flags ..).1

/-- A pop makes room for a push in the same cycle, also of a full queue. -/
theorem queuePop_head_meetsPush (hc : Clocked s n.toNat true) (hp : Clocked s n.toNat false)
    (hmode : blockMode s n.toNat = 1) (w : BitVec 72) {v : BitVec 72} {ok : Bool} {l : List (BitVec 72 × Bool)}
    (h : (blockQ s n.toNat).words = (v, ok) :: l)
    (hdepth : (blockQ s n.toNat).words.length ≤ blockDepth (qcfgOf s n.toNat)) :
    ∃ t, exec (.queuePop n (some w) true) s = .next t ∧
      blockQ t n.toNat = { blockQ s n.toNat with words := l ++ [(cutWord (qcfgOf s n.toNat) w, true)] } ∧
      Popped s t n.toNat v ∧ KeepsOthers s t n.toNat := by
  have hroom : (blockQ (withWords s n.toNat l) n.toNat).words.length <
      blockDepth (qcfgOf (withWords s n.toNat l) n.toNat) := by
    rw [h, List.length_cons] at hdepth
    rw [blockQ_withWords]
    exact hdepth
  rw [exec_queuePop_meetsPush hc hp hmode (popWord_of_good h (.inr hmode)), pushWord_of_room hroom]
  refine ⟨_, rfl, ?_, popped_delivered rfl .., (((KeepsOthers.refl ..).withWords _).withWords _).delivered _⟩
  rw [blockQ_delivered, blockQ_withWords, blockQ_withWords]
  rfl

end Fifo

/-! ## Completions in a CQ block (R477) -/

/-- Freeing an entry changes what its block's queue records of completions, and at most one pair. -/
theorem freeEntry_cases (s : State) (k : Nat) :
    ∃ b : QBlock, (freeEntry s k = setBlock s k b ∨ ∃ q p, freeEntry s k = setPair (setBlock s k b) q p) ∧
      b.words = (blockQ s k).words := by
  simp only [freeEntry]
  split
  · exact ⟨_, .inl rfl, rfl⟩
  · split
    · exact ⟨_, .inl rfl, rfl⟩
    · split
      · exact ⟨_, .inr ⟨_, _, rfl⟩, rfl⟩
      · exact ⟨_, .inl rfl, rfl⟩

theorem freeEntry_frame (s : State) (k : Nat) :
    (freeEntry s k).out = s.out ∧ (freeEntry s k).regs = s.regs ∧ (freeEntry s k).flt = s.flt ∧
      (blockQ (freeEntry s k) k).words = (blockQ s k).words := by
  obtain ⟨b, h | ⟨q, p, h⟩, hwords⟩ := freeEntry_cases s k
  · rw [h, blockQ_setBlock_same]
    exact ⟨rfl, rfl, rfl, hwords⟩
  · rw [h, blockQ_setPair, blockQ_setBlock_same]
    exact ⟨rfl, rfl, rfl, hwords⟩

theorem freeEntry_of_first {s : State} {k : Nat} (h : (blockQ s k).halfPop = false) :
    freeEntry s k = setBlock s k { blockQ s k with halfPop := true } := if_pos h

/-- The second word of a completion leaves the block with the oldest owner's entry (log 120). -/
theorem freeEntry_of_second {s : State} {k : Nat} (h : (blockQ s k).halfPop = true) {q : Nat} {rest : List Nat}
    (howners : (blockQ s k).owners = q :: rest) :
    (freeEntry s k).out = s.out ∧
      blockQ (freeEntry s k) k = { blockQ s k with halfPop := false, owners := rest } ∧
      ((pairOf s q).ctype = 3 → (pairOf s q).cqSize ≠ 0 →
        pairOf (freeEntry s k) q = { pairOf s q with cqHead := ((pairOf s q).cqHead + 1) % (pairOf s q).cqSize }) := by
  simp only [freeEntry, h, Bool.true_eq_false, if_false, howners]
  split
  next hpair => exact ⟨rfl, blockQ_setBlock_same .., fun _ _ => (pairOf_setPair ..).trans (if_pos rfl)⟩
  next hpair => exact ⟨rfl, blockQ_setBlock_same .., fun htype hsize => absurd ⟨htype, hsize⟩ hpair⟩

section Completions
variable {s : State} {n : BitVec 7} {w : BitVec 72} {l : List (BitVec 72 × Bool)}

theorem queuePop_completion (hc : Clocked s n.toNat true) (hmode : blockMode s n.toNat = 5)
    (h : (blockQ s n.toNat).words = (w, true) :: l) :
    exec (.queuePop n none true) s = .next (delivered n.toNat (freeEntry (withWords s n.toNat l) n.toNat, w)) :=
  exec_queuePop_cq hc hmode (h ▸ List.cons_ne_nil _ _) (popWord_of_good h (.inl rfl))

theorem queuePop_completion_first (hc : Clocked s n.toNat true) (hmode : blockMode s n.toNat = 5)
    (h : (blockQ s n.toNat).words = (w, true) :: l) (hfirst : (blockQ s n.toNat).halfPop = false) :
    ∃ t, exec (.queuePop n none true) s = .next t ∧ Popped s t n.toNat w ∧ t.que = s.que ∧
      blockQ t n.toNat = { blockQ s n.toNat with words := l, halfPop := true } := by
  have hfirst' : (blockQ (withWords s n.toNat l) n.toNat).halfPop = false := by rwa [blockQ_withWords]
  rw [queuePop_completion hc hmode h, freeEntry_of_first hfirst']
  refine ⟨_, rfl, popped_delivered rfl .., rfl, ?_⟩
  rw [blockQ_delivered, blockQ_setBlock_same, blockQ_withWords]

theorem queuePop_completion_second (hc : Clocked s n.toNat true) (hmode : blockMode s n.toNat = 5)
    (h : (blockQ s n.toNat).words = (w, true) :: l) (hsecond : (blockQ s n.toNat).halfPop = true) {q : Nat}
    {rest : List Nat} (howners : (blockQ s n.toNat).owners = q :: rest) :
    ∃ t, exec (.queuePop n none true) s = .next t ∧ Popped s t n.toNat w ∧
      blockQ t n.toNat = { blockQ s n.toNat with words := l, halfPop := false, owners := rest } ∧
      ((pairOf s q).ctype = 3 → (pairOf s q).cqSize ≠ 0 →
        pairOf t q = { pairOf s q with cqHead := ((pairOf s q).cqHead + 1) % (pairOf s q).cqSize }) := by
  obtain ⟨hout, hblock, hpair⟩ := freeEntry_of_second (s := withWords s n.toNat l) (k := n.toNat)
    (by rwa [blockQ_withWords]) (by rwa [blockQ_withWords])
  rw [blockQ_withWords] at hblock
  exact ⟨_, queuePop_completion hc hmode h, popped_delivered hout .., hblock, hpair⟩

end Completions

/-- A pop that meets bad parity delivers the word as stored, with PERR and a report (R474). -/
theorem queuePop_badParity {s : State} {n : BitVec 7} (hc : Clocked s n.toNat true)
    (hmode : blockMode s n.toNat = 3 ∨ blockMode s n.toNat = 5) {w : BitVec 72} {ok : Bool}
    {l : List (BitVec 72 × Bool)} (h : (blockQ s n.toNat).words = (w, ok) :: l) :
    ∃ t, exec (.queuePop n none false) s = .next t ∧ Popped s t n.toNat w ∧
      getFlag t (Reg.fabQstat + 0x20 * n.toNat) 7 = true ∧ getFlag t Reg.fabEvt 5 = true ∧
      (blockQ t n.toNat).words = l ∧ t.flt.reports = s.flt.reports ++ [⟨0x0E, BitVec.ofNat 9 n.toNat, 0⟩] := by
  let u := withWords s n.toNat ((w, false) :: l)
  let v := blockParity (withWords u n.toNat l) n.toNat
  have hwords : (blockQ u n.toNat).words = (w, false) :: l := congrArg QBlock.words (blockQ_withWords ..)
  have hgone : (blockQ v n.toNat).words = l := congrArg QBlock.words (blockQ_withWords ..)
  have hmode' : blockMode u n.toNat = 3 ∨ blockMode u n.toNat = 5 := hmode
  have hpop : popWord u n.toNat = (v, w) := popWord_of_bad hwords (by omega)
  obtain ⟨t, hexec, hout, hregs, hflt, hsame⟩ : ∃ t, exec (.queuePop n none true) u = .next (delivered n.toNat (t, w)) ∧
      t.out = v.out ∧ t.regs = v.regs ∧ t.flt = v.flt ∧ (blockQ t n.toNat).words = (blockQ v n.toNat).words := by
    obtain hdown | hcq := hmode'
    · exact ⟨v, exec_queuePop_fifo hc (.inr hdown) hpop, rfl, rfl, rfl, rfl⟩
    · exact ⟨_, exec_queuePop_cq hc hcq (hwords ▸ List.cons_ne_nil _ _) hpop, freeEntry_frame ..⟩
  obtain ⟨hperr, hevent⟩ := blockParity_flags (withWords u n.toNat l) n.toNat
  have hquiet : v.out = s.out := by rw [blockParity_out, withWords_out, withWords_out]
  have hreport : v.flt.reports = s.flt.reports ++ [⟨0x0E, BitVec.ofNat 9 n.toNat, 0⟩] := by
    rw [blockParity_reports, withWords_flt, withWords_flt]
  refine ⟨_, (exec_queuePop_badParity hc h).trans hexec, popped_delivered (hout.trans hquiet) .., ?_, ?_,
    hsame.trans hgone, (congrArg FltState.reports hflt).trans hreport⟩
  · rw [getFlag_delivered, getFlag_of_regs hregs, hperr]
  · rw [getFlag_delivered, getFlag_of_regs hregs, hevent]

/-! ## Descriptors in an SQ block (R476) -/

section Descriptors
variable {s : State} {k : Nat} {q : BitVec 16} (w : BitVec 72 × Bool)

/-- Words of a descriptor that met a full ring are discarded. -/
theorem pushSq_of_skip (hpair : (blockQ s k).pair = some q) (hskip : (blockQ s k).skip ≠ 0) :
    pushSq s k w = setBlock s k { blockQ s k with skip := (blockQ s k).skip - 1 } := by
  simp only [pushSq, hpair, if_pos hskip]

/-- The first word of a descriptor that meets a full ring sets OVF. -/
theorem pushSq_of_full (hpair : (blockQ s k).pair = some q) (hskip : (blockQ s k).skip = 0)
    (hnil : (blockQ s k).partialDesc = [])
    (hfull : 63 ≤ ringUsed (pairOf s q.toNat).sqHead (pairOf s q.toNat).sqTail 64) :
    pushSq s k w = blockOverflow (setBlock s k { blockQ s k with skip := 7 }) k := by
  simp only [pushSq, hpair, hskip, ne_eq, not_true_eq_false, if_false, hnil, hfull, and_self, if_true]

theorem pushSq_of_partial (hpair : (blockQ s k).pair = some q) (hskip : (blockQ s k).skip = 0)
    (hroom : (blockQ s k).partialDesc ≠ [] ∨ ringUsed (pairOf s q.toNat).sqHead (pairOf s q.toNat).sqTail 64 < 63)
    (hlen : (blockQ s k).partialDesc.length < 7) :
    pushSq s k w = setBlock s k { blockQ s k with partialDesc := (blockQ s k).partialDesc ++ [w] } := by
  have hfull : ¬((blockQ s k).partialDesc = [] ∧
      63 ≤ ringUsed (pairOf s q.toNat).sqHead (pairOf s q.toNat).sqTail 64) := by
    rwa [Classical.not_and_iff_not_or_not, Nat.not_le]
  simp only [pushSq, hpair, hskip, ne_eq, not_true_eq_false, if_false, if_neg hfull, if_pos hlen]

/-- The eighth word completes the descriptor and moves the pair's SQ tail on. -/
theorem pushSq_of_last (hpair : (blockQ s k).pair = some q) (hskip : (blockQ s k).skip = 0)
    (hlen : (blockQ s k).partialDesc.length = 7) :
    pushSq s k w = setPair
      (setBlock s k { blockQ s k with partialDesc := [], words := (blockQ s k).words ++ (blockQ s k).partialDesc ++ [w] })
      q.toNat { pairOf s q.toNat with sqTail := ((pairOf s q.toNat).sqTail + 1) % 64 } := by
  have hfull : ¬((blockQ s k).partialDesc = [] ∧
      63 ≤ ringUsed (pairOf s q.toNat).sqHead (pairOf s q.toNat).sqTail 64) := by
    rintro ⟨hnil, -⟩
    simp [hnil] at hlen
  have hlast : ¬(blockQ s k).partialDesc.length < 7 := by omega
  simp only [pushSq, hpair, hskip, ne_eq, not_true_eq_false, if_false, if_neg hfull, if_neg hlast]

end Descriptors

/-! ## The queue registers (R473) -/

theorem onWrite_of_may {s : State} {wr : Writer} {off : Nat} (h : writerMay s wr off = true) (act : State → State) :
    onWrite s wr off act = act s := if_pos h

theorem exec_fabQpop {s : State} {n : BitVec 7} {wr : Writer} (hmay : writerMay s wr (Reg.fabQpop + 0x20 * n.toNat) = true)
    (hmode : blockMode s n.toNat = 2) (v : Word) {w : BitVec 72} {l : List (BitVec 72 × Bool)}
    (h : (blockQ s n.toNat).words = (w, true) :: l) : exec (.fabQpop wr n v) s = .next (withWords s n.toNat l) := by
  refine congrArg Host.Outcome.next ((onWrite_of_may hmay _).trans ((if_pos hmode).trans ?_))
  rw [popWord_of_good h (.inl rfl)]

/-- The words of an UP or DOWN block are 32 bits wide. -/
theorem cutWord_zeroExtend {cfg : Word} (hmode : bits cfg 31 29 = 3) (v : Word) :
    cutWord cfg (v.zeroExtend 72) = v.zeroExtend 72 := by
  have hwidth : wordWidth cfg = 32 := by simp only [wordWidth, hmode]
  apply BitVec.eq_of_toNat_eq
  have := v.isLt
  simp only [cutWord, hwidth, BitVec.truncate_eq_setWidth, BitVec.toNat_setWidth, BitVec.toNat_ofNat]
  omega

theorem exec_fabQpush {s : State} {n : BitVec 7} {wr : Writer}
    (hmay : writerMay s wr (Reg.fabQpush + 0x20 * n.toNat) = true) (hmode : blockMode s n.toNat = 3) (v : Word)
    (hroom : (blockQ s n.toNat).words.length < blockDepth (qcfgOf s n.toNat)) :
    exec (.fabQpush wr n v) s = .next (withWords s n.toNat ((blockQ s n.toNat).words ++ [(v.zeroExtend 72, true)])) := by
  refine congrArg Host.Outcome.next ((onWrite_of_may hmay _).trans ((if_pos hmode).trans ?_))
  rw [pushWord_of_room hroom, cutWord_zeroExtend hmode]

/-! ## Commit of a block's mode (R495) -/

/-- The configuration staged for SQ block k names, as its CQ block, itself, a block of another region, or one that is
not in CQ mode. -/
def BadCq (s : State) (k : Nat) : Prop :=
  let c := bits (reg s (Reg.fabQcfg + 0x20 * k)) 22 16
  c = k ∨ c / 16 ≠ k / 16 ∨ blockMode s c ≠ 5

section Commit
variable {s : State} {wr : Writer} {v : Word} {k : Nat}

theorem exec_fabQcommit_of_refused (hmay : writerMay s wr Reg.fabQcommit = true) (hk : v.toNat % 128 = k)
    (hcode : qcommitRefusal s k ≠ 0) :
    exec (.fabQcommit wr v) s = .next (setField s Reg.fabQcstat 3 0 (qcommitRefusal s k)) := by
  subst hk
  exact congrArg Host.Outcome.next ((onWrite_of_may hmay _).trans (if_pos hcode))

theorem reg_of_ne_fabQcstat {off : Nat} (h : off ≠ Reg.fabQcstat) (x : Nat) :
    reg (setField s Reg.fabQcstat 3 0 x) off = reg s off := by
  rw [reg_setField, if_neg h]

theorem exec_fabQcommit_of_accepted (hmay : writerMay s wr Reg.fabQcommit = true) (hk : v.toNat % 128 = k)
    (hcode : qcommitRefusal s k = 0) :
    exec (.fabQcommit wr v) s = .next (updFab (setField s Reg.fabQcstat 3 0 0) fun f => { f with
      qcfg := storePut 0 f.qcfg k (reg s (Reg.fabQcfg + 0x20 * k))
      qthr := storePut 0 f.qthr k (reg s (Reg.fabQthr + 0x20 * k)) }) := by
  have hbits : bits v 6 0 = k := hk
  have hlt : k < 128 := by omega
  have hcfg : Reg.fabQcfg + 0x20 * k ≠ Reg.fabQcstat := by simp only [Reg.fabQcfg, Reg.fabQcstat]; omega
  have hthr : Reg.fabQthr + 0x20 * k ≠ Reg.fabQcstat := by simp only [Reg.fabQthr, Reg.fabQcstat]; omega
  refine congrArg Host.Outcome.next ((onWrite_of_may hmay _).trans ?_)
  simp only [hbits, hcode, ne_eq, not_true_eq_false, if_false, reg_of_ne_fabQcstat hcfg,
    reg_of_ne_fabQcstat hthr]

theorem qcommitRefusal_of_running (hrun : (regionOf s (k / 16)).phase = .running) : qcommitRefusal s k = 1 :=
  if_pos (decide_eq_true hrun)

theorem qcommitRefusal_of_stopped (hrun : ¬(regionOf s (k / 16)).phase = .running) :
    let w := reg s (Reg.fabQcfg + 0x20 * k)
    (bits w 31 29 = 4 → bit w 15 = true → qcommitRefusal s k = 3) ∧
      (bits w 31 29 = 4 → bit w 15 = false → BadCq s k → qcommitRefusal s k = 2) ∧
      (¬ bits w 31 29 = 4 ∨ (bit w 15 = false ∧ ¬ BadCq s k) → qcommitRefusal s k = 0) := by
  intro w
  have hstop : ¬ regionRuns s (k / 16) = true := fun h => hrun (of_decide_eq_true h)
  refine ⟨fun hsq hreserved => ?_, fun hsq hreserved hbad => ?_, fun hgood => ?_⟩
  · exact (if_neg hstop).trans (if_pos ⟨hsq, hreserved⟩)
  · have hnot3 : ¬(bits w 31 29 = 4 ∧ bit w 15 = true) := fun h => Bool.false_ne_true (hreserved.symm.trans h.2)
    exact (if_neg hstop).trans ((if_neg hnot3).trans (if_pos ⟨hsq, hbad⟩))
  · have hnot3 : ¬(bits w 31 29 = 4 ∧ bit w 15 = true) := fun ⟨hsq, hreserved⟩ =>
      hgood.elim (· hsq) fun h => Bool.false_ne_true (h.1.symm.trans hreserved)
    have hnot2 : ¬(bits w 31 29 = 4 ∧ BadCq s k) := fun ⟨hsq, hbad⟩ => hgood.elim (· hsq) fun h => h.2 hbad
    exact (if_neg hstop).trans ((if_neg hnot3).trans (if_neg hnot2))

theorem fabQcommit_accepted (hmay : writerMay s wr Reg.fabQcommit = true) (hk : v.toNat % 128 = k)
    (hcode : qcommitRefusal s k = 0) :
    ∃ t, exec (.fabQcommit wr v) s = .next t ∧ getField t Reg.fabQcstat 3 0 = 0 ∧ t.fab.blocks = s.fab.blocks ∧
      (∀ j, storeGet 0 t.fab.qcfg j = if j = k then reg s (Reg.fabQcfg + 0x20 * k) else storeGet 0 s.fab.qcfg j) ∧
      ∀ j, storeGet 0 t.fab.qthr j = if j = k then reg s (Reg.fabQthr + 0x20 * k) else storeGet 0 s.fab.qthr j :=
  ⟨_, exec_fabQcommit_of_accepted hmay hk hcode, getField_setField (by decide) s Reg.fabQcstat 0, rfl,
    fun _ => storeGet_storePut .., fun _ => storeGet_storePut ..⟩

end Commit

/-- Settles O45: each command's word, flag and frame by the lemmas of its mode. -/
theorem fabricQueuesKeepOrder : Obligations.FabricQueuesKeepOrder := by
  intro s n
  refine ⟨?pushStopped, ?popStopped, ?push, ?pop, ?meet, ?parity, ?qpop, ?qpush, ?sq, ?cq, ?commit⟩
  case pushStopped => exact exec_queuePush_of_stopped
  case popStopped => exact exec_queuePop_of_stopped
  case push =>
    exact fun hc hmode w ok => ⟨(queuePush_room hc hmode · w ok), (queuePush_full hc hmode · w ok)⟩
  case pop => exact fun hc hmode => ⟨queuePop_empty hc hmode, fun w l => queuePop_head hc hmode⟩
  case meet =>
    exact fun hc hp hmode w =>
      ⟨queuePop_empty_meetsPush hc hp hmode w, fun v ok l => queuePop_head_meetsPush hc hp hmode w⟩
  case parity => exact fun hc hmode w ok l => queuePop_badParity hc hmode
  case qpop => exact fun wr v hmay hmode w l => exec_fabQpop hmay hmode v
  case qpush => exact fun wr v hmay hmode => exec_fabQpush hmay hmode v
  case sq =>
    intro q hc hmode hpair p used w ok
    have hexec := exec_queuePush_sq hc hmode w ok
    refine ⟨fun hskip hnil hfull => ⟨_, hexec, ?_⟩,
      fun hskip => hexec.trans (congrArg _ (pushSq_of_skip _ hpair hskip)),
      fun hskip hlen hroom => hexec.trans (congrArg _ (pushSq_of_partial _ hpair hskip hroom hlen)),
      fun hskip hlen => hexec.trans (congrArg _ (pushSq_of_last _ hpair hskip hlen))⟩
    rw [pushSq_of_full _ hpair hskip hnil hfull]
    exact ⟨blockQ_setBlock_same .., (blockOverflow_flags ..).1, rfl⟩
  case cq =>
    exact fun hc hmode w l h => ⟨queuePop_completion_first hc hmode h,
      fun hsecond q rest => queuePop_completion_second hc hmode h hsecond⟩
  case commit =>
    intro wr v hmay hk
    have refused {c : Nat} (hcode : qcommitRefusal s n.toNat = c) (hc : c ≠ 0) :
        exec (.fabQcommit wr v) s = .next (setField s Reg.fabQcstat 3 0 c) := by
      rw [exec_fabQcommit_of_refused hmay hk fun h => hc (hcode.symm.trans h), hcode]
    refine ⟨fun hrun => refused (qcommitRefusal_of_running hrun) (by decide), fun hrun hsq hreserved => ?_,
      fun hrun hsq hreserved hbad => ?_, fun hrun hgood => ?_⟩
    all_goals obtain ⟨hcode3, hcode2, hcode0⟩ := qcommitRefusal_of_stopped hrun
    · exact refused (hcode3 hsq hreserved) (by decide)
    · exact refused (hcode2 hsq hreserved hbad) (by decide)
    · exact fabQcommit_accepted hmay hk (hcode0 hgood)

end Sys2Proof.FabricQueues
end

section
/-!
The fault manager (chapter 15): a transient event of an abandoned sailing orders no restore and replay.
-/
namespace Sys2Proof.FaultJudgement
set_option autoImplicit false
open Sys2Proof Sys2Proof.Machine

/-! ## What a log entry leaves alone (R523) -/

theorem logReport_repair (s : State) (kind : Nat) (r : FltReport) :
    (logReport s kind r).flt.repair = s.flt.repair := by
  rw [logReport, logEntry]
  split <;> rfl

theorem logReport_ttb (s : State) (kind : Nat) (r : FltReport) : (logReport s kind r).ttb = s.ttb := by
  rw [logReport, logEntry]
  split <;> rfl

/-! ## Transient events after the pass has ended (R504, R513) -/

/-- A pass that has ended, by its marker or because its sailing was abandoned, is replayed for no transient event. -/
theorem transientEvent_of_marked {s : State} (h : s.ttb.marked = true) (cfg : Word) (r : FltReport) :
    transientEvent s cfg r = if bit cfg 30 then logReport s 0 r else s := by
  have hmarked : (if bit cfg 30 then logReport s 0 r else s).ttb.marked = true := by
    split
    · rw [logReport_ttb, h]
    · exact h
  exact if_neg fun ⟨_, _, _, hunmarked, _⟩ => Bool.false_ne_true (hunmarked.symm.trans hmarked)

theorem transientEvent_repair_of_marked {s : State} (h : s.ttb.marked = true) (cfg : Word) (r : FltReport) :
    (transientEvent s cfg r).flt.repair = s.flt.repair := by
  rw [transientEvent_of_marked h]
  split
  · exact logReport_repair ..
  · rfl

theorem faultEvent_repair_of_marked {s : State} {r : FltReport} (h : s.ttb.marked = true)
    (htransient : (countEvent s r.src.toNat r.inst.toNat).2 = false) :
    (faultEvent s r).flt.repair = s.flt.repair := by
  simp only [faultEvent, htransient, Bool.false_eq_true, if_false]
  split
  · rfl
  · exact transientEvent_repair_of_marked (s := (countEvent s r.src.toNat r.inst.toNat).1) h ..

theorem exec_faultEvent {s : State} (h : s.hx1 = true) (src : BitVec 8) (inst : BitVec 9) (detail : Word) :
    exec (.faultEvent src inst detail) s =
      .next (faultEvent (updFlt s fun f => { f with reports := f.reports.erase ⟨src, inst, detail⟩ })
        ⟨src, inst, detail⟩) := congrArg Host.Outcome.next (if_pos h)

/-! ## The abandoned sailing -/

/-- The module in RUN, in a pass whose checkpoint has completed and stands. -/
def checkpointedPass : State :=
  setFlag { State.reset with
    mode := .run, ttb := { State.reset.ttb with ticked := true, phase := .running, ckDone := true } } Reg.ldrCkptStat 31

/-- The same sailing after it was abandoned: its pass has ended and it has sent no marker (R260, R513). -/
def abandonedSailing : State := abandonPass checkpointedPass

/-- Refutes O46 in the clause on TREPLAY: the clause asks only that the sailing has sent no marker, and an abandoned
sailing sends none, but its pass has ended and is not replayed. The event is the first uncorrectable error of plane
memory in tile row 3, under the reset value of FLT_SRC1. -/
theorem not_faultEventsAreJudged : ¬ Obligations.FaultEventsAreJudged := by
  intro h
  have hhx1 : abandonedSailing.hx1 = true := rfl
  obtain ⟨-, hjudged, -⟩ := h abandonedSailing 1 56 0 hhx1
  obtain ⟨t, ht, -, -, -, hreplay, -⟩ := hjudged (by decide +kernel)
  obtain ⟨p, hp, -⟩ := hreplay (by decide +kernel) rfl (by decide +kernel) rfl (by decide +kernel) (by decide +kernel) rfl
    rfl (by decide) (by decide +kernel) rfl
  have hnone : t.flt.repair = none := by
    rw [exec_faultEvent hhx1] at ht
    obtain rfl := Host.Outcome.next.inj ht
    exact faultEvent_repair_of_marked rfl (by decide +kernel)
  exact Option.some_ne_none p (hp.symm.trans hnone)

end Sys2Proof.FaultJudgement
end
section
/-!
Debug access (chapter 17): how an ANSWER is judged, what the end of a session clears, and what the TAP answers.
-/
namespace Sys2Proof.DebugSessions
set_option autoImplicit false
open Sys2Proof Sys2Proof.Machine

/-! ## Sessions and challenges (R554, R557) -/

/-- A challenge of the path stands and has not lapsed. -/
def LiveChallenge (s : State) (path : DbgPath) : Prop := ∃ c at_, s.dbg.chal = some (c, path, at_) ∧ s.now < at_

/-- A session stands on the other path. -/
def SessionElsewhere (s : State) (path : DbgPath) : Prop := ∃ l p, s.dbg.session = some (l, p) ∧ p ≠ path

/-- The Pilots, the Helm, memory and the registers stand as before. -/
def SameUnits (s t : State) : Prop := t.plt = s.plt ∧ t.helm = s.helm ∧ t.mem = s.mem ∧ t.regs = s.regs

theorem challengeOf_eq_some_iff (s : State) (path : DbgPath) (c : BitVec 128) :
    challengeOf s path = some c ↔ ∃ at_, s.dbg.chal = some (c, path, at_) ∧ s.now < at_ := by
  unfold challengeOf
  cases hchal : s.dbg.chal with
  | none => simp
  | some x =>
    obtain ⟨c', p, at'⟩ := x
    simp only [Option.ite_none_right_eq_some, Option.some.injEq, Prod.mk.injEq]
    constructor
    · rintro ⟨⟨rfl, hlive⟩, rfl⟩
      exact ⟨at', ⟨rfl, rfl, rfl⟩, hlive⟩
    · rintro ⟨at_, ⟨rfl, rfl, rfl⟩, hlive⟩
      exact ⟨⟨rfl, hlive⟩, rfl⟩

theorem isSome_challengeOf_iff (s : State) (path : DbgPath) :
    (challengeOf s path).isSome = true ↔ LiveChallenge s path := by
  simp only [Option.isSome_iff_exists, challengeOf_eq_some_iff, LiveChallenge]

theorem challengeOf_of_not_live {s : State} {path : DbgPath} (h : ¬ LiveChallenge s path) :
    challengeOf s path = none := by
  rwa [← isSome_challengeOf_iff, Option.not_isSome_iff_eq_none] at h

theorem dbgLevel_of_session {s : State} {path : DbgPath} {l : BitVec 2} (h : s.dbg.session = some (l, path)) :
    dbgLevel s path = l.toNat := by
  simp only [dbgLevel, h, if_true]

theorem dbgLevel_of_no_session {s : State} {path : DbgPath} (h : ∀ l, s.dbg.session ≠ some (l, path)) :
    dbgLevel s path = 0 := by
  unfold dbgLevel
  cases hs : s.dbg.session with
  | none => rfl
  | some x =>
    obtain ⟨l, p⟩ := x
    exact if_neg fun hp : p = path => h l (hp ▸ hs)

theorem no_session_of_none_or_elsewhere {s : State} {path : DbgPath}
    (h : s.dbg.session = none ∨ SessionElsewhere s path) (l : BitVec 2) : s.dbg.session ≠ some (l, path) := by
  intro hs
  obtain hnone | ⟨l', p, hp, hne⟩ := h
  · exact Option.some_ne_none _ (hs.symm.trans hnone)
  · exact hne (Prod.mk.inj (Option.some.inj (hp.symm.trans hs))).2

theorem debugLevel_of_session {s : State} {l : BitVec 2} {p : DbgPath} (h : s.dbg.session = some (l, p)) :
    debugLevel s = l.toNat := by
  simp only [debugLevel, h]

theorem debugLevel_of_none {s : State} (h : s.dbg.session = none) : debugLevel s = 0 := by
  simp only [debugLevel, h]

/-! ## A CHALLENGE (R554, R556) -/

theorem challenge_of_unlocked {s : State} (hx1 : s.hx1 = true) (hlock : s.dbg.lockEnd = none) (path : DbgPath) :
    challenge s path = updDbg (usedFree s) fun d =>
      { d with chal := some (BitVec.ofNat 128 (freeNat s), path, s.now + 10000000000),
               shown := BitVec.ofNat 128 (freeNat s) } := by
  simp [challenge, hx1, hlock]

theorem challenge_of_locked {s : State} (hx1 : s.hx1 = true) (hlock : s.dbg.lockEnd ≠ none) (path : DbgPath) :
    challenge s path = authCode s 3 := by
  simp [challenge, hx1, Option.isSome_iff_ne_none.mpr hlock]

theorem exec_challengeLapse_due {s : State} {c : BitVec 128} {p : DbgPath} {at_ : Nat}
    (hchal : s.dbg.chal = some (c, p, at_)) (hnow : at_ ≤ s.now) :
    exec .challengeLapse s = .next (updDbg s fun d => { d with chal := none }) := by
  change execChallengeLapse s = _
  simp only [execChallengeLapse, hchal, if_pos hnow]

theorem exec_lockoutEnd_due {s : State} {at_ : Nat} (hlock : s.dbg.lockEnd = some at_) (hnow : at_ ≤ s.now) :
    exec .lockoutEnd s = .next (updDbg s fun d => { d with lockEnd := none }) := by
  change execLockoutEnd s = _
  simp only [execLockoutEnd, hlock, if_pos hnow]

/-! ## An ANSWER, check by check (R555, R556, R559) -/

/-- The state in which the path's challenge has served its one ANSWER (R554). -/
def spentChallenge (s : State) (path : DbgPath) : State :=
  updDbg s fun d => { d with chal := if (challengeOf s path).isSome then none else d.chal }

theorem ite_isSome_challengeOf (s : State) (path : DbgPath) :
    (if (challengeOf s path).isSome = true then updDbg s fun d => { d with chal := none } else s) =
      spentChallenge s path := by
  unfold spentChallenge
  split <;> rfl

theorem spentChallenge_chal {s : State} {path : DbgPath} (h : LiveChallenge s path) :
    (spentChallenge s path).dbg.chal = none := if_pos ((isSome_challengeOf_iff s path).mpr h)

theorem spentChallenge_of_not_live {s : State} {path : DbgPath} (h : ¬ LiveChallenge s path) :
    spentChallenge s path = s := by
  rw [← ite_isSome_challengeOf, if_neg (mt (isSome_challengeOf_iff s path).mp h)]

theorem spentChallenge_of_live {s : State} {path : DbgPath} (h : LiveChallenge s path) :
    spentChallenge s path = updDbg s fun d => { d with chal := none } := by
  rw [← ite_isSome_challengeOf, if_pos ((isSome_challengeOf_iff s path).mpr h)]

theorem answer_of_locked {s : State} (hx1 : s.hx1 = true) (hlock : s.dbg.lockEnd ≠ none) (path : DbgPath)
    (level : BitVec 2) : answer s path level = authCode (spentChallenge s path) 3 := by
  have hspent : (spentChallenge s path).dbg.lockEnd.isSome = true := Option.isSome_iff_ne_none.mpr hlock
  simp only [answer, hx1, Bool.true_eq_false, if_false, ite_isSome_challengeOf, hspent, if_true]

theorem answer_of_elsewhere {s : State} {path : DbgPath} (hx1 : s.hx1 = true) (hlock : s.dbg.lockEnd = none)
    (hother : SessionElsewhere s path) (level : BitVec 2) :
    answer s path level = authCode (spentChallenge s path) 4 := by
  have hspent : (spentChallenge s path).dbg.lockEnd = none := hlock
  obtain ⟨l, p, hs, hne⟩ := hother
  simp only [answer, hx1, Bool.true_eq_false, if_false, ite_isSome_challengeOf, hspent, hs, ne_eq, hne,
    not_false_eq_true, decide_true, if_true, Option.isSome_none, Bool.false_eq_true]

/-- With no lockout and no session on the other path, the path's challenge decides (R555). -/
theorem answer_of_admitted {s : State} {path : DbgPath} (hx1 : s.hx1 = true) (hlock : s.dbg.lockEnd = none)
    (hother : ¬ SessionElsewhere s path) (level : BitVec 2) :
    answer s path level = (challengeOf s path).elim (authCode (spentChallenge s path) 2) fun c =>
      if level = 0 ∨ responseBytes (spentChallenge s path) ≠ wantedResponse c level path
        then badResponse (spentChallenge s path) else openSession (spentChallenge s path) level path := by
  have hspent : (spentChallenge s path).dbg.lockEnd = none := hlock
  have hhere (l : BitVec 2) (p : DbgPath) (hs : s.dbg.session = some (l, p)) : p = path :=
    Classical.not_not.mp fun hne => hother ⟨l, p, hs, hne⟩
  unfold answer
  rw [if_neg (by simp [hx1])]
  simp only [ite_isSome_challengeOf, hspent, Option.isSome_none, Bool.false_eq_true, if_false]
  cases hs : s.dbg.session with
  | none => cases challengeOf s path <;> rfl
  | some x =>
    obtain ⟨l, p⟩ := x
    simp only [hhere l p hs, ne_eq, not_true_eq_false, decide_false, Bool.false_eq_true, if_false]
    cases challengeOf s path <;> rfl

theorem answer_of_no_challenge {s : State} {path : DbgPath} (hx1 : s.hx1 = true) (hlock : s.dbg.lockEnd = none)
    (hother : ¬ SessionElsewhere s path) (hlive : ¬ LiveChallenge s path) (level : BitVec 2) :
    answer s path level = authCode s 2 := by
  rw [answer_of_admitted hx1 hlock hother, challengeOf_of_not_live hlive, spentChallenge_of_not_live hlive]
  rfl

theorem answer_of_challenge {s : State} {path : DbgPath} {c : BitVec 128} (hx1 : s.hx1 = true)
    (hlock : s.dbg.lockEnd = none) (hother : ¬ SessionElsewhere s path) (hc : challengeOf s path = some c)
    (level : BitVec 2) :
    answer s path level = if level = 0 ∨ responseBytes s ≠ wantedResponse c level path
      then badResponse (spentChallenge s path) else openSession (spentChallenge s path) level path := by
  rw [answer_of_admitted hx1 hlock hother, hc]
  rfl

theorem pathCode_byte (path : DbgPath) : BitVec.ofNat 8 (pathCode path) = if path = .jtag then 0 else 1 := by
  cases path <;> rfl

/-- A BADRESP changes the debug unit alone; the third in a row, and every one after it, starts the lockout (R556). -/
theorem badResponse_eq (s : State) : badResponse s = updDbg s fun d => { d with
    code := 1, fails := min 3 (d.fails + 1),
    lockEnd := if 2 ≤ d.fails then some (s.now + 60000000000) else d.lockEnd } := by
  have hthird : min 3 (s.dbg.fails + 1) = 3 ↔ 2 ≤ s.dbg.fails := by omega
  simp only [badResponse, authCode, updDbg, hthird]

theorem order_wdn_only (s : State) (o : Order) : ∃ w, order s o = { s with wdn := w } := by
  unfold order
  split
  · exact ⟨s.wdn, rfl⟩
  · exact ⟨_, rfl⟩

theorem mem_order (s : State) (o : Order) : o ∈ (order s o).wdn.orders := by
  unfold order
  split
  case isTrue h => exact h
  case isFalse => exact List.mem_append_right _ (List.mem_singleton_self o)

/-- A session opens in the debug unit alone; what else changes stands in the Warden. -/
theorem openSession_wdn_only (s : State) (level : BitVec 2) (path : DbgPath) :
    ∃ w, openSession s level path =
      { s with dbg := { s.dbg with code := 0, fails := 0, session := some (level, path) }, wdn := w } := by
  unfold openSession
  dsimp only
  split
  · split
    · obtain ⟨w, hw⟩ := order_wdn_only (updDbg (authCode s 0) fun d =>
        { d with fails := 0, session := some (level, path) }) .bench
      exact ⟨w, hw⟩
    · split <;> exact ⟨_, rfl⟩
  · exact ⟨_, rfl⟩

theorem openSession_orders_bench {s : State} (path : DbgPath) (h : s.mode = .run ∨ s.mode = .degraded) :
    Order.bench ∈ (openSession s 3 path).wdn.orders := by
  have hmode : (updDbg (authCode s 0) fun d => { d with fails := 0, session := some (3, path) }).mode = .run ∨
    (updDbg (authCode s 0) fun d => { d with fails := 0, session := some (3, path) }).mode = .degraded := h
  simp only [openSession, if_true, hmode, mem_order]

theorem openSession_benchFirst {s : State} (path : DbgPath) (h : s.mode = .load) :
    (openSession s 3 path).wdn.benchFirst = true := by
  simp [openSession, authCode, h, updWdn]

theorem openSession_wdn_of_lower {s : State} {level : BitVec 2} (path : DbgPath) (h : level ≠ 3) :
    (openSession s level path).wdn = s.wdn := by
  simp only [openSession, if_neg h]
  rfl

/-! ## The end of a session (R557) -/

theorem exec_logout {s : State} (hx1 : s.hx1 = true) (path : DbgPath) :
    exec (.logout path) s = .next (logout s path) := congrArg Host.Outcome.next (if_pos hx1)

theorem logout_of_no_session {s : State} {path : DbgPath} (h : ∀ l, s.dbg.session ≠ some (l, path)) :
    logout s path = s := if_pos (dbgLevel_of_no_session h)

theorem logout_of_session {s : State} {path : DbgPath} {l : BitVec 2} (h : s.dbg.session = some (l, path))
    (hl : 0 < l.toNat) : logout s path = endSession s :=
  if_neg (by rw [dbgLevel_of_session h]; exact Nat.ne_of_gt hl)

/-- A flag that was cleared reads 0, and every other bit as before. -/
theorem getFlag_clearField (s : State) (a b i j : Nat) (hi : i < 32) :
    getFlag (setField s a i i 0) b j = if b = a ∧ j = i then false else getFlag s b j := by
  rw [getFlag, getFlag, reg_setField]
  by_cases hb : b = a
  · subst hb
    have hfield : i ≤ j ∧ j < i + (i + 1 - i) ∧ j < 32 ↔ j = i := by omega
    simp only [if_true, bit_setBits, Nat.zero_testBit, hfield, true_and]
  · rw [if_neg hb, if_neg fun h => hb h.1]

/-- The n-th breakpoint register from `base` on is disarmed. -/
def disarm (base : Nat) (s : State) (n : Nat) : State := setField s (base + 4 * n) 0 0 0

theorem clearBreakpoints_eq (s : State) :
    clearBreakpoints s = setField ((List.range 2).foldl (disarm Reg.dbgDbpc)
      ((List.range 4).foldl (disarm Reg.dbgIbp) s)) Reg.dbgCtl 4 4 0 := rfl

theorem foldl_disarm_only (base : Nat) (l : List Nat) (s : State) :
    ∃ r, l.foldl (disarm base) s = { s with regs := r } := by
  induction l generalizing s with
  | nil => exact ⟨s.regs, rfl⟩
  | cons n l ih => exact ih (disarm base s n)

theorem clearBreakpoints_only (s : State) : ∃ r, clearBreakpoints s = { s with regs := r } := by
  rw [clearBreakpoints_eq]
  obtain ⟨r, hibp⟩ := foldl_disarm_only Reg.dbgIbp (List.range 4) s
  obtain ⟨r', hdbp⟩ := foldl_disarm_only Reg.dbgDbpc (List.range 2) { s with regs := r }
  rw [hibp, hdbp]
  exact ⟨_, rfl⟩

theorem getFlag_foldl_disarm (base off : Nat) (l : List Nat) (s : State) :
    getFlag (l.foldl (disarm base) s) off 0 = false ↔ getFlag s off 0 = false ∨ ∃ n ∈ l, off = base + 4 * n := by
  induction l generalizing s with
  | nil => simp
  | cons m l ih =>
    rw [List.foldl_cons, ih, disarm, getFlag_clearField _ _ _ _ _ (by decide)]
    simp only [List.mem_cons, exists_eq_or_imp, and_true]
    split
    case isTrue h => simp [h]
    case isFalse h => simp [h]

theorem getFlag_clearBreakpoints_brkhalt (s : State) : getFlag (clearBreakpoints s) Reg.dbgCtl 4 = false := by
  rw [clearBreakpoints_eq, getFlag_clearField _ _ _ _ _ (by decide), if_pos ⟨rfl, rfl⟩]

theorem getFlag_clearBreakpoints_armed (s : State) (off : Nat) :
    getFlag (clearBreakpoints s) off 0 = false ↔ (getFlag s off 0 = false ∨ ∃ n < 4, off = Reg.dbgIbp + 4 * n) ∨
      ∃ n < 2, off = Reg.dbgDbpc + 4 * n := by
  rw [clearBreakpoints_eq, getFlag_clearField _ _ _ _ _ (by decide), if_neg fun h => absurd h.2 (by decide),
    getFlag_foldl_disarm, getFlag_foldl_disarm]
  simp only [List.mem_range]

theorem resumePilots_halted (s : State) : (resumePilots s).plt.halted = false := by
  unfold resumePilots
  split
  case isTrue => rfl
  case isFalse h => exact Bool.eq_false_iff.mpr h

theorem resumePilots_only (s : State) : ∃ p d, resumePilots s = { s with plt := p, dbg := d } := by
  unfold resumePilots
  split
  · exact ⟨_, _, rfl⟩
  · exact ⟨s.plt, s.dbg, rfl⟩

theorem endSession_frame (s : State) : (endSession s).mode = s.mode ∧ (endSession s).mem = s.mem ∧
    (endSession s).regs = (clearBreakpoints s).regs := by
  rw [endSession]
  obtain ⟨regs, hclear⟩ := clearBreakpoints_only s
  generalize clearBreakpoints s = u at hclear ⊢
  obtain ⟨p, d, hresume⟩ := resumePilots_only u
  rw [hresume, hclear]
  exact ⟨rfl, rfl, rfl⟩

theorem getFlag_endSession (s : State) (off i : Nat) :
    getFlag (endSession s) off i = getFlag (clearBreakpoints s) off i := by
  obtain ⟨-, -, hregs⟩ := endSession_frame s
  rw [getFlag, getFlag, reg, reg, hregs]

theorem endSession_resumes (s : State) : (endSession s).dbg.session = none ∧ (endSession s).plt.halted = false ∧
    (endSession s).helm.dbgHalt = false ∧ (endSession s).helm.dbgReq = false := by
  refine ⟨rfl, ?_, rfl, rfl⟩
  rw [endSession, updDbg_plt, resumeHelm, updHelm_plt]
  exact resumePilots_halted _

/-! ## The TAP (R550, R551) -/

theorem bypassIr_of_other {code : BitVec 5} (h0 : code ≠ 0) (h1 : code ≠ 1) (h2 : code ≠ 2) (h8 : code ≠ 8) :
    bypassIr code = code := by
  simp only [bypassIr, h0, h1, h2, h8, or_self, if_false]

theorem passBypass_selectIr (s : State) (ir : BitVec 5) (b : Bool) :
    passBypass (selectIr s ir) b = { s with reply := [0], dbg := { s.dbg with tapIr := ir, bypass := b } } := rfl

theorem exec_bypass {s : State} (hx1 : s.hx1 = true) (x : BypassScan) :
    exec (.bypass x) s = .next (passBypass (selectIr s (bypassIr x.code)) x.bit) :=
  congrArg Host.Outcome.next (if_pos hx1)

theorem exec_samplePreload {s : State} (hx1 : s.hx1 = true) (v : BitVec 256) :
    exec (.samplePreload v) s = .next (scanPins (selectIr s 1) v) := congrArg Host.Outcome.next (if_pos hx1)

/-- A scan of the boundary answers the levels it saw, loads the register and takes a free value. -/
theorem scanPins_eq (s : State) (v : BitVec 256) :
    ∃ pins, scanPins s v = answerWith (usedFree (updDbg s fun d => { d with bscan := v })) [pins] := ⟨_, rfl⟩

theorem scanPins_selectIr (s : State) (ir : BitVec 5) (v : BitVec 256) :
    ∃ pins, (scanPins (selectIr s ir) v).reply = [pins] ∧
      (scanPins (selectIr s ir) v).dbg = { s.dbg with tapIr := ir, bscan := v } ∧
      SameUnits s (scanPins (selectIr s ir) v) := by
  obtain ⟨pins, hscan⟩ := scanPins_eq (selectIr s ir) v
  rw [hscan]
  exact ⟨pins, by simp [SameUnits, selectIr]⟩

theorem exec_extest {s : State} (hx1 : s.hx1 = true) (v : BitVec 256) :
    exec (.extest v) s = .next (if debugLevel s = 3 then scanPins (selectIr s 0) v
      else passBypass (selectIr (if debugLevel s = 0 then s else setFlag s Reg.dbgStat 7) 0) (v.getLsbD 255)) := by
  have hpowered : ¬ tdoDriven s = false := by simp [tdoDriven, hx1]
  refine congrArg Host.Outcome.next ((if_neg hpowered).trans ?_)
  simp only [benchSession, decide_eq_true_eq]

theorem exec_extest_of_bench {s : State} (hx1 : s.hx1 = true) (h : debugLevel s = 3) (v : BitVec 256) :
    exec (.extest v) s = .next (scanPins (selectIr s 0) v) := by rw [exec_extest hx1, if_pos h]

theorem exec_extest_of_none {s : State} (hx1 : s.hx1 = true) (h : debugLevel s = 0) (v : BitVec 256) :
    exec (.extest v) s = .next (passBypass (selectIr s 0) (v.getLsbD 255)) := by
  rw [exec_extest hx1, if_neg (by omega), if_pos h]

/-- A session below BENCH is denied EXTEST, which then acts as BYPASS (R551, R558). -/
theorem exec_extest_of_lower {s : State} (hx1 : s.hx1 = true) (h0 : debugLevel s ≠ 0) (h3 : debugLevel s ≠ 3)
    (v : BitVec 256) :
    exec (.extest v) s = .next (passBypass (selectIr (setFlag s Reg.dbgStat 7) 0) (v.getLsbD 255)) := by
  rw [exec_extest hx1, if_neg h3, if_neg h0]

/-! ## DBGACC (R552, R553) -/

/-- One access to the debug window: the state it leaves, and the data that the next Capture-DR loads. -/
def windowAccess (s : State) (write : Bool) (off : Nat) (val : Word) : State × Word :=
  if write then (dbgWrite s .jtag off val, val) else dbgRead s .jtag off

/-- The state after DBGACC, with what the next Capture-DR loads. -/
def captured (s : State) (x : State × Word) (status : Nat) : State :=
  answerWith (updDbg (usedFree (selectIr x.1 8)) fun d =>
    { d with capData := x.2, capStat := BitVec.ofNat 2 status }) [s.dbg.capStat.toNat * 2 ^ 32 + s.dbg.capData.toNat]

theorem reg_captured (s : State) (x : State × Word) (status off : Nat) :
    reg (captured s x status) off = reg x.1 off := rfl

/-- What DBGACC leaves after an access to the register at `off`. -/
def accessed (s : State) (write : Bool) (off : Nat) (val : Word) : State :=
  captured s (windowAccess s write off val) (accStatus s (windowAccess s write off val).1 write off val)

theorem exec_dbgaccUpdate {s : State} (hx1 : s.hx1 = true) (dr : BitVec 48) :
    exec (.dbgaccUpdate dr) s = .next
      (accessed s (dr.getLsbD 47) (0x508000 + 4 * (dr.toNat / 2 ^ 32 % 2 ^ 13)) (dr.truncate 32)) := by
  rw [← Nat.shiftRight_eq_div_pow]
  refine congrArg Host.Outcome.next ((if_neg (by simp [tdoDriven, hx1])).trans ?_)
  unfold accessed windowAccess captured
  cases dr.getLsbD 47 <;> rfl

/-- Beyond the registers of the authentication, an access without a session does nothing and reads NOAUTH (R553). -/
theorem windowAccess_of_no_session {s : State} {off : Nat} (hoff : Reg.dbgAuthStat < off) (h : dbgLevel s .jtag = 0)
    (write : Bool) (val : Word) : windowAccess s write off val = (s, if write then val else 0) := by
  have hclosed : openRegister off = false := decide_eq_false (by omega)
  have hauth : off ≠ Reg.dbgAuth := fun he => absurd (he ▸ hoff) (by decide)
  cases write with
  | false => simp [windowAccess, dbgRead, hclosed, h]
  | true => simp [windowAccess, dbgWrite, dbgAct, dbgAsk, hclosed, hauth, h]

theorem accStatus_of_no_session {s : State} {off : Nat} (hoff : Reg.dbgAuthStat < off) (h : dbgLevel s .jtag = 0)
    (t : State) (write : Bool) (val : Word) : accStatus s t write off val = 2 := by
  have hclosed : openRegister off = false := decide_eq_false (by omega)
  simp [accStatus, accCodes, hclosed, h, Nat.mod_one]

theorem accessed_of_no_session {s : State} {off : Nat} (hoff : Reg.dbgAuthStat < off) (h : dbgLevel s .jtag = 0)
    (write : Bool) (val : Word) : accessed s write off val = captured s (s, if write then val else 0) 2 := by
  rw [accessed, windowAccess_of_no_session hoff h, accStatus_of_no_session hoff h]

theorem dbgRead_dbgMaddrLo {s : State} (hx1 : s.hx1 = true) {path : DbgPath} (h : 0 < dbgLevel s path) :
    dbgRead s path Reg.dbgMaddrLo = (s, reg s Reg.dbgMaddrLo) := by
  have hsession : dbgLevel s path ≠ 0 := Nat.ne_of_gt h
  unfold dbgRead
  rw [if_neg (by simp [hx1]), if_neg (by decide), if_neg hsession]
  rfl

theorem writeFields_dbgMaddrLo (val old : Word) : writeFields (regFields Reg.dbgMaddrLo) val old = (val, false) := by
  have hfields : regFields Reg.dbgMaddrLo = [rw 31 0] := by decide +kernel
  have hword : setBits old 31 0 (bits val 31 0) = val := by
    refine BitVec.eq_of_getLsbD_eq fun i hi => (bit_setBits old 31 0 _ i).trans ?_
    rw [if_pos (by omega), FabricQueues.testBit_bits, decide_eq_true (by omega), Nat.zero_add]
    rfl
  rw [hfields]
  exact Prod.ext hword rfl

theorem dbgWrite_dbgMaddrLo {s : State} (hx1 : s.hx1 = true) {path : DbgPath} (h : 0 < dbgLevel s path) (val : Word) :
    dbgWrite s path Reg.dbgMaddrLo val = setReg s Reg.dbgMaddrLo val := by
  have hsession : ¬(s.hx1 = false ∨ dbgLevel s path = 0) := by simp [hx1, (Nat.ne_of_gt h)]
  have hlevel : ¬ dbgLevel s path < 1 := by omega
  have hfields : dbgFields s Reg.dbgMaddrLo val = setReg s Reg.dbgMaddrLo val := by
    simp only [dbgFields, writeFields_dbgMaddrLo, Bool.false_eq_true, if_false]
  unfold dbgWrite
  rw [if_neg (by simp [hx1]), if_neg (by decide), if_neg (by decide), if_pos (by decide), dbgAsk, if_neg hsession,
    if_neg hlevel]
  exact hfields

theorem accStatus_dbgMaddrLo {s : State} (h : 0 < dbgLevel s .jtag) {write : Bool}
    (hheld : write = true → s.wdn.held = false) (t : State) (val : Word) :
    accStatus s t write Reg.dbgMaddrLo val = 0 := by
  have hneed : ¬ dbgLevel s .jtag < dbgWriteNeed Reg.dbgMaddrLo := by
    rw [show dbgWriteNeed Reg.dbgMaddrLo = 1 by decide]
    omega
  have hmemory : accMemory write Reg.dbgMaddrLo val = false := by
    cases write <;> rfl
  have hrefused : accRefused s write Reg.dbgMaddrLo val = false := by
    rw [accRefused, hmemory, decide_eq_false hneed, show decide (Reg.dbgMaddrLo = Reg.dbgRegdata) = false by decide]
    cases write with
    | false => simp
    | true => simp [hheld rfl]
  have hcodes : accCodes s t write Reg.dbgMaddrLo val = [0] := by
    rw [accCodes, if_neg (by decide), if_neg (Nat.ne_of_gt h), hrefused, hmemory]
    rfl
  rw [accStatus, hcodes, List.length_singleton, Nat.mod_one]
  rfl

theorem accessed_dbgMaddrLo_read {s : State} (hx1 : s.hx1 = true) (h : 0 < dbgLevel s .jtag) (val : Word) :
    accessed s false Reg.dbgMaddrLo val = captured s (s, reg s Reg.dbgMaddrLo) 0 := by
  rw [accessed, accStatus_dbgMaddrLo h (by simp), windowAccess, dbgRead_dbgMaddrLo hx1 h]
  rfl

theorem accessed_dbgMaddrLo_write {s : State} (hx1 : s.hx1 = true) (h : 0 < dbgLevel s .jtag)
    (hheld : s.wdn.held = false) (val : Word) :
    accessed s true Reg.dbgMaddrLo val = captured s (setReg s Reg.dbgMaddrLo val, val) 0 := by
  rw [accessed, accStatus_dbgMaddrLo h fun _ => hheld, windowAccess, dbgWrite_dbgMaddrLo hx1 h]
  rfl

/-! ## The obligation -/

/-- Settles O54: each command of the sessions and of the TAP by its own rule above. -/
theorem debugSessionsAreAuthenticated : Obligations.DebugSessionsAreAuthenticated := by
  intro s path hx1 d live other same
  refine ⟨fun hlock => ?challenge, fun hlock => ?challengeLocked, fun level hlock => ?locked,
    fun level hlock hother => ?busy, fun level hlock hother hlive => ?noChallenge,
    fun level c at_ hlock hother hchal hnow => ?judged, fun l hs hl => ?logout, fun h => ?logoutElsewhere,
    fun c p at_ hchal hnow => ?lapse, fun at_ hlock hnow => ?lockoutEnd, ?tapReset, ?idcode,
    fun x h0 h1 h2 h8 => ?bypass, fun v => ?samplePreload, fun v hs => ?extestNone, fun v l p hs h0 h3 => ?extestDenied,
    fun v p hs => ?extest, fun dr => ?dbgacc⟩
  case challenge =>
    exact ⟨_, _, congrArg Host.Outcome.next (challenge_of_unlocked hx1 hlock path), ⟨rfl, rfl, rfl, rfl⟩, rfl, rfl⟩
  case challengeLocked => exact congrArg Host.Outcome.next (challenge_of_locked hx1 hlock path)
  case locked =>
    exact ⟨_, congrArg Host.Outcome.next (answer_of_locked hx1 hlock path level), ⟨rfl, rfl, rfl, rfl⟩, rfl, rfl, rfl,
      spentChallenge_chal⟩
  case busy =>
    exact ⟨_, congrArg Host.Outcome.next (answer_of_elsewhere hx1 hlock hother level), ⟨rfl, rfl, rfl, rfl⟩, rfl, rfl,
      rfl, spentChallenge_chal⟩
  case noChallenge => exact congrArg Host.Outcome.next (answer_of_no_challenge hx1 hlock hother hlive level)
  case judged =>
    have hlive : LiveChallenge s path := ⟨c, at_, hchal, hnow⟩
    have hc : challengeOf s path = some c := (challengeOf_eq_some_iff s path c).mpr ⟨at_, hchal, hnow⟩
    have hanswer := answer_of_challenge hx1 hlock hother hc level
    rw [wantedResponse, pathCode_byte, spentChallenge_of_live hlive] at hanswer
    refine ⟨fun hbad => ?_, fun hlevel hgood => ?_⟩
    · rw [if_pos hbad, badResponse_eq] at hanswer
      exact ⟨_, congrArg Host.Outcome.next hanswer, ⟨rfl, rfl, rfl, rfl⟩, rfl, rfl, rfl, rfl, congrArg (ite _ _) hlock⟩
    · rw [if_neg (not_or.mpr ⟨hlevel, not_not_intro hgood⟩)] at hanswer
      obtain ⟨w, hopen⟩ := openSession_wdn_only (updDbg s fun d => { d with chal := none }) level path
      refine ⟨_, congrArg Host.Outcome.next hanswer, ?_, ?_, ?_, ?_, ?_, openSession_wdn_of_lower path⟩
      · rw [hopen]; exact ⟨rfl, rfl, rfl, rfl⟩
      · rw [hopen]; rfl
      · rw [hopen]; rfl
      · rintro rfl hmode
        exact openSession_orders_bench path hmode
      · rintro rfl hmode
        exact openSession_benchFirst path hmode
  case logout =>
    obtain ⟨hsession, hpilots, hhalt, hreq⟩ := endSession_resumes s
    obtain ⟨hmode, hmem, -⟩ := endSession_frame s
    rw [exec_logout hx1, logout_of_session hs hl]
    refine ⟨_, rfl, hsession, hpilots, hhalt, hreq, fun n hn => ?_, fun n hn => ?_, ?_, hmode, hmem⟩
    · exact (getFlag_endSession ..).trans ((getFlag_clearBreakpoints_armed ..).mpr (.inl (.inr ⟨n, hn, rfl⟩)))
    · exact (getFlag_endSession ..).trans ((getFlag_clearBreakpoints_armed ..).mpr (.inr ⟨n, hn, rfl⟩))
    · exact (getFlag_endSession ..).trans (getFlag_clearBreakpoints_brkhalt s)
  case logoutElsewhere => rw [exec_logout hx1, logout_of_no_session (no_session_of_none_or_elsewhere h)]
  case lapse => exact exec_challengeLapse_due hchal hnow
  case lockoutEnd => exact exec_lockoutEnd_due hlock hnow
  case tapReset => exact congrArg Host.Outcome.next (if_pos hx1)
  case idcode => exact congrArg Host.Outcome.next (if_pos hx1)
  case bypass =>
    rw [exec_bypass hx1, bypassIr_of_other h0 h1 h2 h8, passBypass_selectIr]
  case samplePreload =>
    obtain ⟨pins, hscan⟩ := scanPins_selectIr s 1 v
    exact ⟨_, pins, exec_samplePreload hx1 v, hscan⟩
  case extestNone => rw [exec_extest_of_none hx1 (debugLevel_of_none hs), passBypass_selectIr]
  case extestDenied =>
    have hnone : debugLevel s ≠ 0 := fun h => h0 (BitVec.eq_of_toNat_eq ((debugLevel_of_session hs).symm.trans h))
    have hlower : debugLevel s ≠ 3 := fun h => h3 (BitVec.eq_of_toNat_eq ((debugLevel_of_session hs).symm.trans h))
    rw [exec_extest_of_lower hx1 hnone hlower, passBypass_selectIr]
    rfl
  case extest =>
    obtain ⟨pins, hscan⟩ := scanPins_selectIr s 0 v
    exact ⟨_, pins, exec_extest_of_bench hx1 (debugLevel_of_session hs) v, hscan⟩
  case dbgacc =>
    intro off
    refine ⟨accessed s (dr.getLsbD 47) off (dr.truncate 32), exec_dbgaccUpdate hx1 dr, rfl, rfl,
      fun hoff hsession => ?_, fun l hs hl hoff => ?_⟩
    · rw [accessed_of_no_session hoff (dbgLevel_of_no_session hsession)]
      exact ⟨rfl, rfl, rfl, fun hread => if_neg (Bool.eq_false_iff.mp hread)⟩
    · have hlevel : 0 < dbgLevel s .jtag := (dbgLevel_of_session hs).symm ▸ hl
      rw [hoff]
      refine ⟨fun hread => ?_, fun hwrite hheld => ?_⟩
      · rw [hread, accessed_dbgMaddrLo_read hx1 hlevel]
        exact ⟨rfl, rfl, rfl⟩
      · rw [hwrite, accessed_dbgMaddrLo_write hx1 hlevel hheld]
        exact ⟨rfl, (reg_captured ..).trans ((reg_setReg ..).trans (if_pos rfl))⟩

end Sys2Proof.DebugSessions
end
